-- ==== Sys2Proof/Word.lean ====
section
/-! DEFINITION. The widths of the block (00_scope.md R5), a line level as a bit (R7), the names of the
bus lines (R11), the levels of all of them, and the two-valued direction (R18). -/

namespace Sys2Proof

/-- A line level: 0 is logic low, 1 is logic high (R7). -/
abbrev Level := BitVec 1

/-- A value of the sixteen address lines, `AW = 16` (R5). -/
abbrev Addr := BitVec 16

/-- A value of the eight data lines, `DW = 8` (R5). -/
abbrev Byte := BitVec 8

/-- A value of the cycle counter, `CW = 16` (R5). -/
abbrev Count := BitVec 16

/-- A 24-bit stimulus word `w[23:0]` (R53). -/
abbrev Stimulus := BitVec 24

/-- The packed form of a sample, 41 bits (R59). -/
abbrev Packed := BitVec 41

/-- The processor's operation in a bus cycle, not the monitor's action (R18, R12). -/
inductive Direction where
  | read
  | write
deriving DecidableEq, Repr, Inhabited

/-- The lines the block watches and never drives (R11): `CLK`, `RES`, `RW`, `A0`..`A15`, `D0`..`D7`. -/
inductive LineId where
  | clk
  | res
  | rw
  | addr (i : Fin 16)
  | data (i : Fin 8)
deriving DecidableEq, Repr

/-- The level each line had at the moment the handler read it. The lines are read one after another
(R41), so this need not be the bus at one instant: any levels whatever may stand here. -/
structure Bus where
  clk  : Level
  res  : Level
  rw   : Level
  addr : Vector Level 16
  data : Vector Level 8
deriving DecidableEq, Repr

end Sys2Proof
end

