-- ==== Sys2Proof/Config.lean ====
section
/-! DEFINITION. What the source fixes (00_scope.md R5), the three parameters it leaves open (R6), and
the power-on values it does not give (R32). The open ones are constants with no body: nothing can
be proved of their values, so a claim that mentions them holds for every value. -/

namespace Sys2Proof

/-- `CMAX = 0xFFFF`, the value at which `advance()` wraps (R5, R83). -/
def Config.cmax : Count := 0xFFFF#16

/-- `CPERIOD = 65536`, completed cycles between two rollovers with no reset between (R5). -/
def Config.cperiod : Nat := 65536

/-- The parameters the source leaves open (R6; decisions D1, D2, D3 of 92_eei_decisions.md). -/
structure Params where
  /-- `RESET_ASSERT_LEVEL`: the `RES` level that means "reset asserted". -/
  resetAssertLevel : Level
  /-- `RW_WRITE_LEVEL`: the `RW` level that indicates a processor write. -/
  rwWriteLevel : Level
  /-- `DIR_INIT`: the power-on content of the direction latch. -/
  dirInit : Direction
deriving DecidableEq, Repr, Inhabited

/-- The parameters of the installation that `State.reset` describes. FREE (DESIGN CHOICE, logs 1 and 2). -/
opaque Config.params : Params

/-- The power-on content of `address`. FREE (R32: unspecified; DESIGN CHOICE, log 3). -/
opaque Config.addressAtPowerOn : Addr

/-- The power-on content of `data`. FREE (R32: unspecified; DESIGN CHOICE, log 3). -/
opaque Config.dataAtPowerOn : Byte

/-- The power-on content of `clock_level`. FREE (R32: unspecified; DESIGN CHOICE, log 3). -/
opaque Config.clockLevelAtPowerOn : Level

end Sys2Proof
end

