-- ==== Sys2Proof/Syntax.lean ====
section
/-! DEFINITION. The event alphabet (30_encoding.md R51): the five operations, "the complete set of
things that can happen to" the block, one constructor per row of spec/opcode_table.json. The
operands are the line levels the operation reads, already folded (20_memory.md R40). -/

namespace Sys2Proof

/-- One operation of the block (R9, R51). -/
inductive Instr where
  /-- `CLK_FALL`: a clock-line transition to low, with the folded address lines and the `RW` level (R72). -/
  | clkFall (a : Addr) (rw : Level)
  /-- `CLK_RISE`: a clock-line transition to high, with the folded data lines (R73). -/
  | clkRise (d : Byte)
  /-- `RES_LOW`: a reset-line transition after which the handler reads level 0 (R69). -/
  | resLow
  /-- `RES_HIGH`: a reset-line transition after which the handler reads level 1 (R70). -/
  | resHigh
  /-- `POLL`: one pass of the Idle Supervisor's loop body (R90). -/
  | poll
deriving DecidableEq, Repr

end Sys2Proof
end

