-- ==== Sys2Proof/Decode.lean ====
section
/-! DEFINITION. The stimulus decoder, total on 24-bit words (30_encoding.md R53 to R56, R66), and the
encoder. The word is the spec's own notation (decision D10, log 17); the hardware never sees one. -/

namespace Sys2Proof

/-- One row of the table of R54: a word `w` selects it when `(w AND mask) == match`. -/
structure Row where
  mnemonic : String
  mask     : Stimulus
  pattern  : Stimulus
deriving DecidableEq, Repr

/-- `w` selects the row (R54). -/
def Row.selects (r : Row) (w : Stimulus) : Bool := w &&& r.mask == r.pattern

/-- Format F: `000 0000 r aaaaaaaaaaaaaaaa`. -/
def rowClkFall : Row := ⟨"CLK_FALL", 0xFE0000#24, 0x000000#24⟩
/-- Format R: `001 0000 0 00000000 dddddddd`. -/
def rowClkRise : Row := ⟨"CLK_RISE", 0xFFFF00#24, 0x200000#24⟩
/-- Format N: `010 0000 0 0000000000000000`. -/
def rowResLow : Row := ⟨"RES_LOW", 0xFFFFFF#24, 0x400000#24⟩
/-- Format N: `011 0000 0 0000000000000000`. -/
def rowResHigh : Row := ⟨"RES_HIGH", 0xFFFFFF#24, 0x600000#24⟩
/-- Format N: `100 0000 0 0000000000000000`. -/
def rowPoll : Row := ⟨"POLL", 0xFFFFFF#24, 0x800000#24⟩

/-- The opcode table (R54). -/
def opcodeTable : List Row := [rowClkFall, rowClkRise, rowResLow, rowResHigh, rowPoll]

/-- The row of an event. -/
def rowOf : Instr → Row
  | .clkFall _ _ => rowClkFall
  | .clkRise _ => rowClkRise
  | .resLow => rowResLow
  | .resHigh => rowResHigh
  | .poll => rowPoll

/-- `w[23:22]`: 00 clock line, 01 reset line, 10 poll, 11 reserved (R53). -/
def srcField (w : Stimulus) : BitVec 2 := w.extractLsb' 22 2
/-- `w[21]`: the level of the line of `src` as read by the handler; 0 for poll (R53). -/
def lvlField (w : Stimulus) : Level := w.extractLsb' 21 1
/-- `w[20:17]`: must be 0000 (R53). -/
def zeroField (w : Stimulus) : BitVec 4 := w.extractLsb' 17 4
/-- `w[16]`: the level of the `RW` line (R53). -/
def rwField (w : Stimulus) : Level := w.extractLsb' 16 1
/-- `w[15:0]` of a `CLK_FALL`: bit `i` is the level of line `A_i` (R55). -/
def aField (w : Stimulus) : Addr := w.extractLsb' 0 16
/-- `w[7:0]` of a `CLK_RISE`: bit `i` is the level of line `D_i` (R55). -/
def dField (w : Stimulus) : Byte := w.extractLsb' 0 8

/-- Why a word spells no event: the four cases R56 lists. A word in several gets the first. -/
inductive Reserved where
  /-- `src == 11`. -/
  | source
  /-- `w[20:17] != 0`. -/
  | zeroBits
  /-- `src == 10` and `lvl == 1`. -/
  | pollLevel
  /-- A must-be-zero operand bit is set. -/
  | operandBits
deriving DecidableEq, Repr

/-- The decoder's answer: an event, or the word is reserved (R66). -/
inductive Decoded where
  | event (i : Instr)
  | reserved (why : Reserved)
deriving DecidableEq, Repr

/-- Which case of R56 a word that selects no row falls under. -/
def reservedReason (w : Stimulus) : Reserved :=
  if srcField w = 3#2 then .source
  else if zeroField w ≠ 0#4 then .zeroBits
  else if srcField w = 2#2 ∧ lvlField w = 1#1 then .pollLevel
  else .operandBits

/-- The stimulus decoder (R54, R56). -/
def decode (w : Stimulus) : Decoded :=
  if rowClkFall.selects w then .event (.clkFall (aField w) (rwField w))
  else if rowClkRise.selects w then .event (.clkRise (dField w))
  else if rowResLow.selects w then .event .resLow
  else if rowResHigh.selects w then .event .resHigh
  else if rowPoll.selects w then .event .poll
  else .reserved (reservedReason w)

/-- The stimulus word of an event, field by field from R53: `src`, `lvl`, zero, `rw`, operand. -/
def encode : Instr → Stimulus
  | .clkFall a rw => 0b00#2 ++ 0b0#1 ++ 0b0000#4 ++ rw ++ a
  | .clkRise d => 0b00#2 ++ 0b1#1 ++ 0b0000#4 ++ 0b0#1 ++ 0x00#8 ++ d
  | .resLow => 0b01#2 ++ 0b0#1 ++ 0b0000#4 ++ 0b0#1 ++ 0x0000#16
  | .resHigh => 0b01#2 ++ 0b1#1 ++ 0b0000#4 ++ 0b0#1 ++ 0x0000#16
  | .poll => 0b10#2 ++ 0b0#1 ++ 0b0000#4 ++ 0b0#1 ++ 0x0000#16

/-- What the decoder reads from a word of `nbits` bits numbered as spec/opcode_table.json numbers
them. A value that needs more than 24 bits is no stimulus word (R53). -/
def decodeTableWord (nbits w : Nat) : Option Instr :=
  let v := w % 2 ^ nbits
  if v < 2 ^ 24 then
    match decode (BitVec.ofNat 24 v) with
    | .event i => some i
    | .reserved _ => none
  else none

end Sys2Proof
end

