-- ==== Sys2Proof/Machine/State.lean ====
section
/-! DEFINITION. The state of the block (10_state.md R13), the records it emits (30_encoding.md R58,
R61), the inputs the environment hands it, and its power-on state (10_state.md R32). -/

namespace Sys2Proof.Machine

/-- `BusCycleSample` (R58). -/
structure BusCycleSample where
  cycleIndex : Count
  address    : Addr
  data       : Byte
  direction  : Direction
deriving DecidableEq, Repr

/-- The three kinds of output record (R61). -/
inductive OutputRecord where
  | sample (b : BusCycleSample)
  | statusReset
  | rolloverNotice
deriving DecidableEq, Repr

/-- What the environment can hand the block next (R9, R40, R94). -/
inductive Input where
  /-- An event written as a stimulus word (R53). -/
  | word (w : Stimulus)
  /-- A `CLK` transition: the clock handler runs and reads the lines (R71, R102, R104). -/
  | clockEdge (bus : Bus)
  /-- A `RES` transition: the reset handler runs and reads `RES` (R68, R102, R104). -/
  | resetEdge (bus : Bus)
  /-- The first half of a pass of the Idle Supervisor, `POLL_A` (R94). -/
  | pollA
  /-- The second half, `POLL_B` (R94). -/
  | pollB
deriving DecidableEq, Repr

/-- Where the Idle Supervisor stands in the split reading of R94. -/
inductive PollPhase where
  /-- No pass has been begun, or the pass has ended. -/
  | idle
  /-- `POLL_A` found reset not asserted; `POLL_B` is due. -/
  | midPass
deriving DecidableEq, Repr

/-- The state of the block: exactly the eight fields of R13. -/
structure Block where
  /-- `reset_level`: the `RES` level last reported by the Reset Monitor (R14). -/
  resetLevel : Level
  /-- `pending`: a falling edge has been taken and not yet consumed; false is Armed, true is Latched (R15, R16). -/
  pending : Bool
  /-- `address`: sampled at the last falling edge (R17). -/
  address : Addr
  /-- `direction`: derived at the last falling edge taken while not in reset (R18). -/
  direction : Direction
  /-- `clock_level`: the `CLK` level read by the last clock handler invocation (R19). -/
  clockLevel : Level
  /-- `data`: sampled at the last emitting rising edge (R20). -/
  data : Byte
  /-- `cycle_count`: the Cycle Counter (R21). -/
  cycleCount : Count
  /-- `rollover_pending`: a rollover has been signalled and not yet reported (R22). -/
  rolloverPending : Bool
deriving DecidableEq, Repr

/-- The block and the run it is in. Only `block` is state of the hardware (R13); the parameters, the
events still to come and the trace so far are arguments and results of the run (R24), carried here
because a step takes and gives one value (logs 1, 6, 8, 9). -/
structure State where
  params : Params
  block  : Block
  poll   : PollPhase
  inputs : List Input
  trace  : List OutputRecord
deriving DecidableEq, Repr

/-- How a step could stop with a fault: not at all. "No condition in this system is treated as fatal"
(R96): there is no constructor, so nothing raises one (log 21). -/
inductive Fault where
deriving DecidableEq, Repr

/-- Why a step has no meaning. -/
inductive Refusal where
  /-- Raised by an arm of `exec` whose event has no meaning yet; none is left. Safe: the model stops. -/
  | notModelled (mnemonic : String)
  /-- Raised by `runWord` on a stimulus word that spells no event (R56). Safe: the hardware never sees
  a stimulus word, and cannot receive a sixth kind of event (log 17). -/
  | reservedStimulus (why : Reserved) (w : Stimulus)
deriving DecidableEq, Repr

/-- The block at power-on (R32), for given parameters and given contents of the three latches whose
power-on value is unspecified. -/
def Block.powerOn (p : Params) (address : Addr) (data : Byte) (clockLevel : Level) : Block where
  resetLevel := p.resetAssertLevel
  pending := false
  address := address
  direction := p.dirInit
  clockLevel := clockLevel
  data := data
  cycleCount := 0x0000#16
  rolloverPending := false

/-- Power-on (R32, R113): Armed, counter 0, reset assumed asserted, nothing emitted, no event yet. -/
def State.powerOn (p : Params) (address : Addr) (data : Byte) (clockLevel : Level) : State where
  params := p
  block := Block.powerOn p address data clockLevel
  poll := .idle
  inputs := []
  trace := []

/-- The machine right after power-on. The parameters and the three unspecified latches are free. -/
def State.reset : State :=
  State.powerOn Config.params Config.addressAtPowerOn Config.dataAtPowerOn Config.clockLevelAtPowerOn

end Sys2Proof.Machine
end

