-- ==== Sys2Proof/Machine/Ops.lean ====
section
/-! DEFINITION. The named operations every rule is written in (00_scope.md R8): `s.f <- v` for each
field, `in_reset(s)` and `Emit(r)`. There is no memory and no exception to take (R35, R96): the
counterpart of taking one is handler entry, `clockHandler` and `resetHandler` (60_exceptions.md R104). -/

namespace Sys2Proof.Machine

/-- `s.reset_level <- v`. -/
def State.setResetLevel (s : State) (v : Level) : State :=
  { s with block := { s.block with resetLevel := v } }
/-- `s.pending <- v`. -/
def State.setPending (s : State) (v : Bool) : State :=
  { s with block := { s.block with pending := v } }
/-- `s.address <- v`. -/
def State.setAddress (s : State) (v : Addr) : State :=
  { s with block := { s.block with address := v } }
/-- `s.direction <- v`. -/
def State.setDirection (s : State) (v : Direction) : State :=
  { s with block := { s.block with direction := v } }
/-- `s.clock_level <- v`. -/
def State.setClockLevel (s : State) (v : Level) : State :=
  { s with block := { s.block with clockLevel := v } }
/-- `s.data <- v`. -/
def State.setData (s : State) (v : Byte) : State :=
  { s with block := { s.block with data := v } }
/-- `s.cycle_count <- v`. -/
def State.setCycleCount (s : State) (v : Count) : State :=
  { s with block := { s.block with cycleCount := v } }
/-- `s.rollover_pending <- v`. -/
def State.setRolloverPending (s : State) (v : Bool) : State :=
  { s with block := { s.block with rolloverPending := v } }
/-- Where the Idle Supervisor stands (R94). -/
def State.setPoll (s : State) (v : PollPhase) : State := { s with poll := v }
/-- What is still to come. -/
def State.setInputs (s : State) (v : List Input) : State := { s with inputs := v }

/-- `in_reset(s)`: the latched level is the asserted one (R14). The `RES` line itself is not looked at. -/
def inReset (s : State) : Bool := s.block.resetLevel == s.params.resetAssertLevel

/-- `Emit(r)`: append `r` to the output trace; never blocks, never fails (R8, R50). -/
def emit (r : OutputRecord) (s : State) : State := { s with trace := s.trace ++ [r] }

end Sys2Proof.Machine
end

