-- ==== Sys2Proof/Machine/CycleCounter.lean ====
section
/-! DEFINITION. The Cycle Counter (42_cycle_counter.md R83, R84). Its two operations are no events:
an emitting `CLK_RISE` invokes the first, a reset handler that reads the asserted level the second. -/

namespace Sys2Proof.Machine

/-- `advance()`: wrap at `CMAX` and signal the rollover, else increment (R83; the sticky bit is decision
D6, log 4). -/
def advance (s : State) : State :=
  if s.block.cycleCount = Config.cmax then (s.setCycleCount 0x0000#16).setRolloverPending true
  else s.setCycleCount (s.block.cycleCount + 1#16)

/-- `reset_counter()`: the counter to 0, and nothing else (R84). -/
def resetCounter (s : State) : State := s.setCycleCount 0x0000#16

end Sys2Proof.Machine
end

