-- ==== Sys2Proof/Machine/Flags.lean ====
section
/-! DEFINITION. The derived one-bit notions (10_state.md R16, R27): the Armed/Latched state, the
"write requested" flag and the direction it gives (41_bus_sampler.md R72 steps 2 and 3). -/

namespace Sys2Proof.Machine

/-- The two states of the Edge State Machine (R16). -/
inductive Phase where
  | armed
  | latched
deriving DecidableEq, Repr

/-- `Armed` is `pending == 0`, `Latched` is `pending == 1` (R16; C10). -/
def phase (s : State) : Phase := if s.block.pending then .latched else .armed

/-- `write_req := (rw == RW_WRITE_LEVEL)` (R72 step 2). -/
def writeRequested (p : Params) (rw : Level) : Bool := rw == p.rwWriteLevel

/-- `Write` when the control line indicates a processor write, otherwise `Read` (R18, R72 step 3). -/
def directionOf (p : Params) (rw : Level) : Direction :=
  if writeRequested p rw then .write else .read

end Sys2Proof.Machine
end

