-- ==== Sys2Proof/Machine/Operands.lean ====
section
/-! DEFINITION. The line sampling interface (20_memory.md R36, R37, R40) and the classification of a
line transition into an event (30_encoding.md R52, R55). -/

namespace Sys2Proof.Machine

/-- `Line(id)`, the Line Reader: the level of the named line; pure (R36). -/
def line (bus : Bus) : LineId → Level
  | .clk => bus.clk
  | .res => bus.res
  | .rw => bus.rw
  | .addr i => bus.addr[i]
  | .data i => bus.data[i]

/-- `Fold(id_0, ..., id_{n-1})`: the sum over `i` of `Line(id_i) * 2^i`, the first line at bit 0 (R8, R37). -/
def fold (bus : Bus) : List LineId → Nat
  | [] => 0
  | id :: ids => (line bus id).toNat + 2 * fold bus ids

/-- The order table of the address lines: `A0` first (R37). -/
def addressLines : List LineId :=
  [.addr 0, .addr 1, .addr 2, .addr 3, .addr 4, .addr 5, .addr 6, .addr 7,
   .addr 8, .addr 9, .addr 10, .addr 11, .addr 12, .addr 13, .addr 14, .addr 15]

/-- The order table of the data lines: `D0` first (R37). -/
def dataLines : List LineId :=
  [.data 0, .data 1, .data 2, .data 3, .data 4, .data 5, .data 6, .data 7]

/-- `Fold(A0, ..., A15)` as the 16-bit address value (R37). -/
def sampleAddress (bus : Bus) : Addr := BitVec.ofNat 16 (fold bus addressLines)

/-- `Fold(D0, ..., D7)` as the 8-bit data value (R37). -/
def sampleData (bus : Bus) : Byte := BitVec.ofNat 8 (fold bus dataLines)

/-- The event of a clock handler invocation: by the level read on `CLK`, not by the level before (R52;
decision D9, log 10). -/
def clockEvent (bus : Bus) : Instr :=
  if line bus .clk = 0#1 then .clkFall (sampleAddress bus) (line bus .rw)
  else .clkRise (sampleData bus)

/-- The event of a reset handler invocation: by the level read on `RES` (R52). -/
def resetEvent (bus : Bus) : Instr := if line bus .res = 0#1 then .resLow else .resHigh

end Sys2Proof.Machine
end

