-- ==== Sys2Proof/Machine/BusSampler.lean ====
section
/-! DEFINITION. The Bus Sampler / Edge State Machine (41_bus_sampler.md R71 to R82): `CLK_FALL`,
`CLK_RISE`, and the clock handler as it is entered on a transition of `CLK`. -/

namespace Sys2Proof.Machine

/-- Step 3 of the falling edge: derive the direction, only when not in reset; otherwise it stays as it
was (R18, R72; decision D18, log 15). -/
def deriveDirection (rw : Level) (s : State) : State :=
  if inReset s then s else s.setDirection (directionOf s.params rw)

/-- The falling-edge procedure, steps 1 to 4 of R72. Only step 3 asks whether the processor is in
reset; nothing asks whether a cycle is pending already (R78; decision D13, log 12). -/
def fallingProcedure (a : Addr) (rw : Level) (s : State) : State :=
  (deriveDirection rw (s.setAddress a)).setPending true

/-- The record an emitting rising edge builds: the count before the increment, the latched address and
direction, the data just read (R58, R75). -/
def sampleRecord (d : Byte) (s : State) : BusCycleSample :=
  ⟨s.block.cycleCount, s.block.address, d, s.block.direction⟩

/-- The emitting case, steps 3 to 5 (R75). -/
def emitSample (d : Byte) (s : State) : State :=
  advance ((emit (.sample (sampleRecord d s)) (s.setData d)).setPending false)

/-- The rising-edge procedure, steps 1 to 5 of R73: no-op (R76), discard (R74) or emit (R75). -/
def risingProcedure (d : Byte) (s : State) : State :=
  if s.block.pending then
    if inReset s then s.setPending false else emitSample d s
  else s

/-- `CLK_EDGE(L, a, rw, d)` (R71): store the level read, then run the procedure for it. -/
def clkEdge (l : Level) (a : Addr) (rw : Level) (d : Byte) (s : State) : State :=
  if l = 0#1 then fallingProcedure a rw (s.setClockLevel l) else risingProcedure d (s.setClockLevel l)

/-- `CLK_FALL` (R72). -/
def execClkFall (a : Addr) (rw : Level) (s : State) : Host.Outcome State Fault Refusal :=
  .next (fallingProcedure a rw (s.setClockLevel 0#1))

/-- `CLK_RISE` (R73). -/
def execClkRise (d : Byte) (s : State) : Host.Outcome State Fault Refusal :=
  .next (risingProcedure d (s.setClockLevel 1#1))

/-- Entry of the clock handler: it saves nothing, reads the lines and runs the procedure for the level
of `CLK`; its return restores nothing (R71, R104, R105). Reads are pure, so that the lines the
other procedure needs are read too changes nothing (R36, R40). -/
def clockHandler (bus : Bus) (s : State) : State :=
  clkEdge (line bus .clk) (sampleAddress bus) (line bus .rw) (sampleData bus) s

end Sys2Proof.Machine
end

