-- ==== Sys2Proof/Machine/IdleSupervisor.lean ====
section
/-! DEFINITION. The Idle Supervisor (43_idle_supervisor.md R90 to R95): `POLL` as one indivisible pass,
and the admitted refinement that splits it into `POLL_A` and `POLL_B` (R94; decision D14, log 9). -/

namespace Sys2Proof.Machine

/-- The read-and-clear of `rollover_pending`, indivisible in any reading (R92, R94). -/
def reportRollover (s : State) : State :=
  if s.block.rolloverPending then (emit .rolloverNotice s).setRolloverPending false else s

/-- `POLL` (R90): the reset branch (R91), else the rollover branch (R92). -/
def pollPass (s : State) : State := if inReset s then emit .statusReset s else reportRollover s

/-- `POLL` (R90). -/
def execPoll (s : State) : Host.Outcome State Fault Refusal := .next (pollPass s)

/-- `POLL_A` (R94): in reset, report it and end the pass; otherwise `POLL_B` is due. -/
def pollFirstHalf (s : State) : State :=
  if inReset s then (emit .statusReset s).setPoll .idle else s.setPoll .midPass

/-- `POLL_B` (R94): the rollover branch, whatever `in_reset` has become since. With no pass begun there
is nothing to resume. -/
def pollSecondHalf (s : State) : State :=
  match s.poll with
  | .idle => s
  | .midPass => (reportRollover s).setPoll .idle

end Sys2Proof.Machine
end

