-- ==== Sys2Proof/Machine/ResetMonitor.lean ====
section
/-! DEFINITION. The Reset Monitor (40_reset_monitor.md R67 to R70): `RES_LOW`, `RES_HIGH`, and the reset
handler as it is entered on a transition of `RES`. -/

namespace Sys2Proof.Machine

/-- `RES_EDGE(L)` (R68): latch the level; the report of the asserted level clears the counter (decision
D5, log 5). The previous level is not looked at. -/
def resEdge (l : Level) (s : State) : State :=
  if l = s.params.resetAssertLevel then resetCounter (s.setResetLevel l) else s.setResetLevel l

/-- `RES_LOW` (R69). -/
def execResLow (s : State) : Host.Outcome State Fault Refusal := .next (resEdge 0#1 s)

/-- `RES_HIGH` (R70). -/
def execResHigh (s : State) : Host.Outcome State Fault Refusal := .next (resEdge 1#1 s)

/-- Entry of the reset handler: it saves nothing, reads its line and runs its procedure; its return
restores nothing (R104, R105). -/
def resetHandler (bus : Bus) (s : State) : State := resEdge (line bus .res) s

end Sys2Proof.Machine
end

