-- ==== Sys2Proof/Machine/Dispatch.lean ====
section
/-! DEFINITION. The meaning of every event: one arm per constructor of `Instr` (30_encoding.md R51). -/

namespace Sys2Proof.Machine

def exec (i : Instr) (s : State) : Host.Outcome State Fault Refusal :=
  match i with
  | .clkFall a rw => Sys2Proof.Machine.execClkFall a rw s
  | .clkRise d => Sys2Proof.Machine.execClkRise d s
  | .resLow => Sys2Proof.Machine.execResLow s
  | .resHigh => Sys2Proof.Machine.execResHigh s
  | .poll => Sys2Proof.Machine.execPoll s

end Sys2Proof.Machine
end

