-- ==== Sys2Proof/Machine/Inputs.lean ====
section
/-! DEFINITION. How the next input is taken and what it does: the counterpart of fetching (00_scope.md
R9, 60_exceptions.md R104, R106; logs 6 and 7). -/

namespace Sys2Proof.Machine

/-- The oldest input, and the state without it; none if the environment has raised no further event. -/
def nextInput (s : State) : Option (Input × State) :=
  match s.inputs with
  | [] => none
  | e :: rest => some (e, s.setInputs rest)

/-- An event written as a stimulus word: decoded, or refused by name (R54, R56). -/
def runWord (w : Stimulus) (s : State) : Host.Outcome State Fault Refusal :=
  match decode w with
  | .event i => exec i s
  | .reserved why => .refused (.reservedStimulus why w)

/-- One input. -/
def runInput (e : Input) (s : State) : Host.Outcome State Fault Refusal :=
  match e with
  | .word w => runWord w s
  | .clockEdge bus => .next (clockHandler bus s)
  | .resetEdge bus => .next (resetHandler bus s)
  | .pollA => .next (pollFirstHalf s)
  | .pollB => .next (pollSecondHalf s)

/-- `s` with the word put in front of everything still to come. -/
def putWordFirst (s : State) (w : Stimulus) : State := s.setInputs (.word w :: s.inputs)

/-- The 24-bit stimulus word of `w` at `nbits` bits, the bits above zero. -/
def tableStimulus (nbits w : Nat) : Stimulus := BitVec.ofNat 24 (w % 2 ^ nbits)

end Sys2Proof.Machine
end

