-- ==== Sys2Proof/Machine/Step.lean ====
section
/-! DEFINITION. One step: the next event the environment has raised (00_scope.md R9). -/

namespace Sys2Proof.Machine

/-- The oldest input is taken and run. With none, nothing happens: "the block does nothing until the
first event" (R113), and it never halts (R128). -/
def step (s : State) : Host.Outcome State Fault Refusal :=
  match nextInput s with
  | none => .next s
  | some (e, s') => runInput e s'

/-- `s` with the table word `w` of `nbits` bits as the next input (log 7). -/
def State.withFetchWord (s : State) (nbits w : Nat) : State := putWordFirst s (tableStimulus nbits w)

end Sys2Proof.Machine
end

