-- ==== Sys2Proof/Machine/Records.lean ====
section
/-! DEFINITION. The forms of an output record: packed (30_encoding.md R59, R60), and what R63 and R64
give of the text: digits, marker and the one literal status line. The text itself (separators,
letter case, line end, the rollover notice) is not in the source and not modelled (log 19). -/

namespace Sys2Proof.Machine

/-- `Read = 0`, `Write = 1` (R60; decision D11, log 18). -/
def directionBit : Direction → BitVec 1
  | .read => 0#1
  | .write => 1#1

/-- The direction a bit stands for (R60). -/
def directionOfBit (b : BitVec 1) : Direction := if b = 1#1 then .write else .read

/-- `p[40:25]` cycle index, `p[24:9]` address, `p[8:1]` data, `p[0]` direction (R59). -/
def BusCycleSample.pack (b : BusCycleSample) : Packed :=
  b.cycleIndex ++ b.address ++ b.data ++ directionBit b.direction

/-- The sample a packed form stands for (R59). -/
def BusCycleSample.unpack (p : Packed) : BusCycleSample where
  cycleIndex := p.extractLsb' 25 16
  address := p.extractLsb' 9 16
  data := p.extractLsb' 1 8
  direction := directionOfBit (p.extractLsb' 0 1)

/-- The `n` lowest base-`b` digits of `v`, most significant first (R38, R63). -/
def digits (b : Nat) : Nat → Nat → List Nat
  | 0, _ => []
  | n + 1, v => v / b ^ n % b :: digits b n v

/-- `r` for processor-read, `W` for processor-write (R60). -/
def directionMarker : Direction → Char
  | .read => 'r'
  | .write => 'W'

/-- The six fields of a text line in the order of R63, a number as its digit values. -/
structure TextFields where
  cycleIndexHex : List Nat
  addressBinary : List Nat
  addressHex    : List Nat
  dataBinary    : List Nat
  dataHex       : List Nat
  marker        : Char
deriving DecidableEq, Repr

/-- The fields the Formatter renders a sample as (R63). -/
def BusCycleSample.textFields (b : BusCycleSample) : TextFields where
  cycleIndexHex := digits 16 4 b.cycleIndex.toNat
  addressBinary := digits 2 16 b.address.toNat
  addressHex := digits 16 4 b.address.toNat
  dataBinary := digits 2 8 b.data.toNat
  dataHex := digits 16 2 b.data.toNat
  marker := directionMarker b.direction

/-- The literal status line of a record, where the source gives one: only `RESET` (R64). -/
def OutputRecord.statusLine : OutputRecord → Option String
  | .sample _ => none
  | .statusReset => some "RESET"
  | .rolloverNotice => none

end Sys2Proof.Machine
end

