-- ==== Sys2Proof/Machine/Anomalies.lean ====
section
/-! DEFINITION. The anomalies (60_exceptions.md R97 to R101): none is a fault, each is a defined outcome
of an operation; here they are predicates on an event and the state it finds. Also the execution
contexts and components (R51, R108). -/

namespace Sys2Proof.Machine

/-- The four names of R101. -/
inductive Anomaly where
  /-- A `CLK_RISE` with `pending == 0` (R97). -/
  | spuriousRise
  /-- A `CLK_RISE` with `pending == 1` and `in_reset` (R98). -/
  | resetMidCycle
  /-- An `advance()` with `cycle_count == 0xFFFF` (R100). -/
  | rollover
  /-- A `CLK_FALL` with `pending == 1` (R99). -/
  | doubleFall
deriving DecidableEq, Repr

/-- A `CLK_RISE` in this state emits a sample (R75). -/
def emitting (s : State) : Bool := s.block.pending && !inReset s

/-- The anomaly an event meets in a state; R101 shows that no event meets two. -/
def anomalyOf (i : Instr) (s : State) : Option Anomaly :=
  match i with
  | .clkFall _ _ => if s.block.pending then some .doubleFall else none
  | .clkRise _ =>
    if !s.block.pending then some .spuriousRise
    else if inReset s then some .resetMidCycle
    else if s.block.cycleCount = Config.cmax then some .rollover
    else none
  | .resLow => none
  | .resHigh => none
  | .poll => none

/-- The components of R51. -/
inductive Component where
  | busSampler
  | resetMonitor
  | idleSupervisor
deriving DecidableEq, Repr

/-- Which component serves an event (R51). -/
def componentOf : Instr → Component
  | .clkFall _ _ => .busSampler
  | .clkRise _ => .busSampler
  | .resLow => .resetMonitor
  | .resHigh => .resetMonitor
  | .poll => .idleSupervisor

/-- The two execution contexts of R108. -/
inductive Context where
  | interrupt
  | nonInterrupt
deriving DecidableEq, Repr

/-- The handlers run in the interrupt context, `POLL` in the other (R108). -/
def contextOf (i : Instr) : Context :=
  match componentOf i with
  | .busSampler => .interrupt
  | .resetMonitor => .interrupt
  | .idleSupervisor => .nonInterrupt

end Sys2Proof.Machine
end

