-- ==== Sys2Proof/WellFormed.lean ====
section
/-! DEFINITION. The trace notation of 30_encoding.md R65 and its well-formedness.

An `Instr` carries its operands at the widths of R40, so every `Instr` is a well-formed event (R66:
`a` in 0..0xFFFF, `rw` in 0..1, `d` in 0..0xFF). Where an event is WRITTEN DOWN its operands are plain
numbers and can be out of range: that is a `TraceLine`, and `TraceLine.wf` is the check. -/

namespace Sys2Proof

/-- One line of the trace notation, the three shorthands included (R65). -/
inductive TraceLine where
  | clkFall (a rw : Nat)
  | clkRise (d : Nat)
  | resLow
  | resHigh
  | poll
  /-- `CYCLE a rw d`: `CLK_FALL a rw` followed by `CLK_RISE d`. -/
  | cycle (a rw d : Nat)
  /-- `RES_ASSERT`: the reset event whose level is `RESET_ASSERT_LEVEL`. -/
  | resAssert
  /-- `RES_RELEASE`: the other one. -/
  | resRelease
deriving DecidableEq, Repr

/-- The operands are in the ranges of R66. -/
def TraceLine.wf : TraceLine → Bool
  | .clkFall a rw => a < 2 ^ 16 && rw < 2
  | .clkRise d => d < 2 ^ 8
  | .resLow => true
  | .resHigh => true
  | .poll => true
  | .cycle a rw d => a < 2 ^ 16 && rw < 2 && d < 2 ^ 8
  | .resAssert => true
  | .resRelease => true

/-- The reset event whose handler reads level `l` (R52). -/
def resEvent (l : Level) : Instr := if l = 0#1 then .resLow else .resHigh

/-- The events a line stands for; none if an operand is out of range. The two reset shorthands depend
on `RESET_ASSERT_LEVEL` (R65). -/
def TraceLine.events (p : Params) (t : TraceLine) : Option (List Instr) :=
  if t.wf then
    match t with
    | .clkFall a rw => some [.clkFall (BitVec.ofNat 16 a) (BitVec.ofNat 1 rw)]
    | .clkRise d => some [.clkRise (BitVec.ofNat 8 d)]
    | .resLow => some [.resLow]
    | .resHigh => some [.resHigh]
    | .poll => some [.poll]
    | .cycle a rw d =>
      some [.clkFall (BitVec.ofNat 16 a) (BitVec.ofNat 1 rw), .clkRise (BitVec.ofNat 8 d)]
    | .resAssert => some [resEvent p.resetAssertLevel]
    | .resRelease => some [resEvent (~~~p.resetAssertLevel)]
  else none

end Sys2Proof
end

