-- ==== Sys2Proof/Safety.lean ====
section
/-! DEFINITION. The terms claims are stated in: a run over events (00_scope.md R9), what can be observed,
the counter invariant (10_state.md R33), and the premises on the environment that
92_eei_decisions.md names (ALT, RELEASED-ARMED, NO-PULSE, FAITHFUL-SAMPLE, POLL-FAIR; log 25). -/

namespace Sys2Proof.Machine

/-- A run: the events folded through the operations (R9). -/
def runEvents : List Instr → State → Host.Outcome State Fault Refusal
  | [], s => .next s
  | i :: is, s =>
    match exec i s with
    | .next t => runEvents is t
    | .fault r => .fault r
    | .refused r => .refused r

/-- The inputs that spell a list of events. -/
def wordsOf (es : List Instr) : List Input := es.map fun i => .word (encode i)

/-- The samples of a trace, in order. -/
def samplesOf (trace : List OutputRecord) : List BusCycleSample :=
  trace.filterMap fun
    | .sample b => some b
    | .statusReset => none
    | .rolloverNotice => none

/-- One full bus cycle, what `CYCLE a rw d` stands for (R65). -/
structure BusCycle where
  a  : Addr
  rw : Level
  d  : Byte
deriving DecidableEq, Repr

/-- `CLK_FALL a rw` followed by `CLK_RISE d` (R65). -/
def BusCycle.events (c : BusCycle) : List Instr := [.clkFall c.a c.rw, .clkRise c.d]

/-- The events of full bus cycles one after another. -/
def cycleEvents (cs : List BusCycle) : List Instr := cs.flatMap BusCycle.events

/-- The level a reset event's handler reads (R52). -/
def resetLevelRead : Instr → Option Level
  | .resLow => some 0#1
  | .resHigh => some 1#1
  | .clkFall _ _ => none
  | .clkRise _ => none
  | .poll => none

/-- A reset handler invocation that reads the asserted level (R68). -/
def assertsReset (p : Params) (i : Instr) : Bool := resetLevelRead i == some p.resetAssertLevel

/-- A reset handler invocation that reads the other level (R68). -/
def releasesReset (p : Params) (i : Instr) : Bool := resetLevelRead i == some (~~~p.resetAssertLevel)

/-- A rising clock edge. -/
def isRise : Instr → Bool
  | .clkRise _ => true
  | .clkFall _ _ => false
  | .resLow => false
  | .resHigh => false
  | .poll => false

/-- A clock event of either kind. -/
def isClock : Instr → Bool
  | .clkRise _ => true
  | .clkFall _ _ => true
  | .resLow => false
  | .resHigh => false
  | .poll => false

/-- A rising edge that emits a sample in the state it finds (R75). -/
def emits (i : Instr) (s : State) : Bool := isRise i && emitting s

/-- The number of samples emitted since the last reset or rollover, counted along a run that has counted
`n` so far: a handler invocation at the asserted level starts again, and so does the wrapping
`advance()`, the one whose sample carries the index `0xFFFF` (R33 item 3). -/
def samplesSinceMark : List Instr → State → Nat → Nat
  | [], _, n => n
  | i :: is, s, n =>
    let n' :=
      if assertsReset s.params i then 0
      else if emits i s then (if s.block.cycleCount = Config.cmax then 0 else n + 1)
      else n
    match exec i s with
    | .next t => samplesSinceMark is t n'
    | .fault _ => n'
    | .refused _ => n'

/-- R33 item 1: while reset is asserted the counter is 0. -/
def CounterZeroInReset (s : State) : Prop := inReset s = true → s.block.cycleCount = 0#16

/-- What no rule reads, put to zero: `clock_level` and `data` always (R19, R20), `address` while no cycle
is pending (R17). Two states that agree under `observable` differ in nothing that can ever show. -/
def observable (s : State) : State :=
  { s with
    block :=
      { s.block with
        clockLevel := 0#1
        data := 0#8
        address := if s.block.pending then s.block.address else 0#16 } }

/-- An event with its address renamed. -/
def renameEvent (f : Addr → Addr) : Instr → Instr
  | .clkFall a rw => .clkFall (f a) rw
  | .clkRise d => .clkRise d
  | .resLow => .resLow
  | .resHigh => .resHigh
  | .poll => .poll

/-- A record with its address renamed. -/
def renameRecord (f : Addr → Addr) : OutputRecord → OutputRecord
  | .sample b => .sample { b with address := f b.address }
  | .statusReset => .statusReset
  | .rolloverNotice => .rolloverNotice

/-- A state with the latched address and the addresses of the trace renamed. -/
def renameState (f : Addr → Addr) (s : State) : State :=
  { s with
    block := { s.block with address := f s.block.address }
    trace := s.trace.map (renameRecord f) }

/-- Every event of a run satisfies `P` in the state it finds. -/
def along (P : Instr → State → Bool) : List Instr → State → Bool
  | [], _ => true
  | i :: is, s =>
    P i s &&
      match exec i s with
      | .next t => along P is t
      | .fault _ => true
      | .refused _ => true

/-- ALT, after a clock event of level `last` if there was one: no two in a row of the same kind (R34). -/
def alternatesAfter : Option Level → List Instr → Bool
  | _, [] => true
  | last, .clkFall _ _ :: is => last != some 0#1 && alternatesAfter (some 0#1) is
  | last, .clkRise _ :: is => last != some 1#1 && alternatesAfter (some 1#1) is
  | last, .resLow :: is => alternatesAfter last is
  | last, .resHigh :: is => alternatesAfter last is
  | last, .poll :: is => alternatesAfter last is

/-- ALT: clock handler invocations alternate (R34). -/
def alternates (es : List Instr) : Bool := alternatesAfter none es

/-- No event of the run is a `DoubleFall` (R78, R99). -/
def noDoubleFall (es : List Instr) (s : State) : Bool :=
  along (fun i s => anomalyOf i s != some .doubleFall) es s

/-- No event of the run is a `SpuriousRise` (R97). -/
def noSpuriousRise (es : List Instr) (s : State) : Bool :=
  along (fun i s => anomalyOf i s != some .spuriousRise) es s

/-- RELEASED-ARMED: every release of reset happens with `pending == 0` (R77, R118). -/
def releasedArmed (es : List Instr) (s : State) : Bool :=
  along (fun i s => !(inReset s && releasesReset s.params i && s.block.pending)) es s

/-- NO-PULSE, with `owed` when the reset now asserted has not met a rising edge yet: every assertion of
reset lasts across at least one `CLK_RISE` (R81). -/
def noPulseAfter : Bool → List Instr → State → Bool
  | _, [], _ => true
  | owed, i :: is, s =>
    !(owed && releasesReset s.params i) &&
      match exec i s with
      | .next t =>
        noPulseAfter (if !inReset s && assertsReset s.params i then true else owed && !isRise i) is t
      | .fault _ => true
      | .refused _ => true

/-- NO-PULSE (R81). -/
def noPulse (es : List Instr) (s : State) : Bool := noPulseAfter false es s

/-- FAITHFUL-SAMPLE: what each clock event carries is what the observed processor drove at that point of
the run (R41). -/
def FaithfulSample (driven : Nat → Bus) (es : List Instr) : Prop :=
  ∀ (k : Nat) (i : Instr), es[k]? = some i →
    match i with
    | .clkFall a rw => a = sampleAddress (driven k) ∧ rw = line (driven k) .rw
    | .clkRise d => d = sampleData (driven k)
    | .resLow => True
    | .resHigh => True
    | .poll => True

/-- POLL-FAIR: polls keep occurring in an unending run (R95). -/
def PollFair (e : Nat → Instr) : Prop := ∀ n, ∃ m, n ≤ m ∧ e m = .poll

end Sys2Proof.Machine
end

