-- ==== Sys2Proof/Certificates/Slice0/Obligations.lean ====
section
/-! DEFINITION. The statements for the provers. Each docstring names the rule of spec/ it formalises, or
says which decision of the spec or entry of the assumption log it rests on. -/

open Sys2Proof Sys2Proof.Machine

/-! ### Events, stimulus words, line sampling -/

/-- A step takes the oldest input off the queue and runs the event it spells (R9; queue: log 6). -/
def Obligations.StepRunsDecodedEvent : Prop :=
  ∀ (s : State) (w : Stimulus) (rest : List Input) (i : Instr),
    s.inputs = .word w :: rest → decode w = .event i →
      step s = exec i { s with inputs := rest } ∧
      ∀ t, step s = .next t → t.inputs = rest

/-- A reserved stimulus word is refused by name, and maps to no event (R56, decision D10, log 17). -/
def Obligations.StepRefusesReservedWord : Prop :=
  ∀ (s : State) (w : Stimulus) (rest : List Input) (why : Reserved),
    s.inputs = .word w :: rest → decode w = .reserved why →
      step s = .refused (.reservedStimulus why w)

/-- With no event raised nothing happens (R113: "the block does nothing until the first event"; log 6). -/
def Obligations.StepWithoutInputChangesNothing : Prop :=
  ∀ s : State, s.inputs = [] → step s = .next s

/-- The table word put in front is what the next step runs, at the state it was put into (log 7). -/
def Obligations.FetchWordIsRunNext : Prop :=
  ∀ (s : State) (nbits w : Nat) (i : Instr), nbits ≤ 24 → decodeTableWord nbits w = some i →
    step (s.withFetchWord nbits w) = exec i s

/-- The words of R54 and of the decoder table of 95_test_vectors.md decode as written there (decision D10,
log 17). -/
def Obligations.SpecWordsDecodeAsWritten : Prop :=
  decode 0x010001#24 = .event (.clkFall 0x0001#16 1#1) ∧
  decode 0x001234#24 = .event (.clkFall 0x1234#16 0#1) ∧
  decode 0x01FFFF#24 = .event (.clkFall 0xFFFF#16 1#1) ∧
  decode 0x2000EA#24 = .event (.clkRise 0xEA#8) ∧
  decode 0x400000#24 = .event .resLow ∧
  decode 0x600000#24 = .event .resHigh ∧
  decode 0x800000#24 = .event .poll ∧
  decode 0x020000#24 = .reserved .zeroBits ∧
  decode 0x200100#24 = .reserved .operandBits ∧
  decode 0x210000#24 = .reserved .operandBits ∧
  decode 0x400001#24 = .reserved .operandBits ∧
  decode 0xA00000#24 = .reserved .pollLevel ∧
  decode 0xC00000#24 = .reserved .source

/-- Encode-then-decode is the identity on events, every operand at every value (R66, derived; decision D10,
log 17). -/
def Obligations.DecodeOfEncodeIsIdentity : Prop :=
  ∀ i : Instr, decode (encode i) = .event i

/-- Decode-then-encode is the identity on non-reserved words (R66, derived; decision D10, log 17). -/
def Obligations.EncodeOfDecodeIsIdentity : Prop :=
  ∀ (w : Stimulus) (i : Instr), decode w = .event i → encode i = w

/-- A word is reserved exactly in the cases R56 lists: `src == 11`, `w[20:17] != 0`, `src == 10` with `lvl
== 1`, or a must-be-zero operand bit (decision D10, log 17). -/
def Obligations.ReservedExactlyInListedCases : Prop :=
  ∀ w : Stimulus,
    (∃ why, decode w = .reserved why) ↔
      srcField w = 3#2 ∨ zeroField w ≠ 0#4 ∨ (srcField w = 2#2 ∧ lvlField w = 1#1) ∨
      (srcField w = 0#2 ∧ lvlField w = 1#1 ∧ w.extractLsb' 8 9 ≠ 0#9) ∨
      ((srcField w = 1#2 ∨ srcField w = 2#2) ∧ w.extractLsb' 0 17 ≠ 0#17)

/-- The rows are disjoint: no word selects two (R54, decision D10, log 17). -/
def Obligations.NoWordSelectsTwoRows : Prop :=
  ∀ (w : Stimulus) (r r' : Row), r ∈ opcodeTable → r' ∈ opcodeTable →
    r.selects w = true → r'.selects w = true → r = r'

/-- R37: a fold is the sum of `Line(id_i) * 2^i`, in `0 .. 2^n - 1`; the address is the fold of `A0`..`A15`
and the data the fold of `D0`..`D7`, so line `i` is bit `i`; and the source's two worked patterns. -/
def Obligations.FoldIsWeightedSumOfLines : Prop :=
  (∀ (bus : Bus) (ids : List LineId),
    fold bus ids = ∑ k : Fin ids.length, (line bus ids[k]).toNat * 2 ^ (k : Nat) ∧
    fold bus ids < 2 ^ ids.length) ∧
  (∀ bus : Bus,
    addressLines = (List.finRange 16).map .addr ∧
    (sampleAddress bus).toNat = fold bus addressLines ∧
    ∀ k : Fin 16, (sampleAddress bus).getLsbD k = (line bus (.addr k) == 1#1)) ∧
  (∀ bus : Bus,
    dataLines = (List.finRange 8).map .data ∧
    (sampleData bus).toNat = fold bus dataLines ∧
    ∀ k : Fin 8, (sampleData bus).getLsbD k = (line bus (.data k) == 1#1)) ∧
  (∀ bus : Bus, line bus (.addr 0) = 1#1 → (∀ k : Fin 16, k ≠ 0 → line bus (.addr k) = 0#1) →
    sampleAddress bus = 0x0001#16) ∧
  (∀ bus : Bus,
    [7, 6, 5, 4, 3, 2, 1, 0].map (fun k : Fin 8 => line bus (.data k)) =
      [1#1, 1#1, 1#1, 0#1, 1#1, 0#1, 1#1, 0#1] →
    sampleData bus = 0xEA#8)

/-- A line transition runs the event it is classified as: by the level read, with the folded lines as
operands (R52, R71, R104; decision D9, log 10). -/
def Obligations.LineTransitionRunsClassifiedEvent : Prop :=
  ∀ (s : State) (bus : Bus) (rest : List Input),
    (s.inputs = .clockEdge bus :: rest →
      step s = exec (clockEvent bus) { s with inputs := rest } ∧
      (bus.clk = 0#1 → step s = exec (.clkFall (sampleAddress bus) bus.rw) { s with inputs := rest }) ∧
      (bus.clk = 1#1 → step s = exec (.clkRise (sampleData bus)) { s with inputs := rest })) ∧
    (s.inputs = .resetEdge bus :: rest →
      step s = exec (resetEvent bus) { s with inputs := rest } ∧
      (bus.res = 0#1 → step s = exec .resLow { s with inputs := rest }) ∧
      (bus.res = 1#1 → step s = exec .resHigh { s with inputs := rest }))

/-- The packed form of a sample loses nothing, in either direction (R59, R60; decision D11, log 18). -/
def Obligations.PackedSampleRoundTrip : Prop :=
  (∀ b : BusCycleSample, BusCycleSample.unpack b.pack = b) ∧
  (∀ p : Packed, (BusCycleSample.unpack p).pack = p)

/-- The shorthands of the trace notation (R65, decision D12, log 17): `RES_ASSERT` reads the asserted level,
`RES_RELEASE` the other, `CYCLE` is the two clock events; an operand out of range spells nothing. -/
def Obligations.TraceShorthandsExpand : Prop :=
  ∀ p : Params,
    (∃ i, TraceLine.events p .resAssert = some [i] ∧ assertsReset p i = true) ∧
    (∃ i, TraceLine.events p .resRelease = some [i] ∧ releasesReset p i = true) ∧
    (∀ c : BusCycle, TraceLine.events p (.cycle c.a.toNat c.rw.toNat c.d.toNat) = some c.events) ∧
    (∀ a rw d : Nat, 2 ^ 16 ≤ a ∨ 2 ≤ rw ∨ 2 ^ 8 ≤ d → TraceLine.events p (.cycle a rw d) = none)

/-! ### Power-on -/

/-- The power-on state of R32 for every value of the parameters and of the three unspecified latches, and
`State.reset` is one of them (the parameters and latches are free: logs 1, 2, 3; that the rollover bit
exists and is 0 is decision D6, log 4). -/
def Obligations.PowerOnStateIsAsListed : Prop :=
  (∀ (p : Params) (a : Addr) (d : Byte) (c : Level),
    let s := State.powerOn p a d c
    inReset s = true ∧ s.block.resetLevel = p.resetAssertLevel ∧ phase s = .armed ∧
    s.block.pending = false ∧ s.block.cycleCount = 0x0000#16 ∧ s.block.rolloverPending = false ∧
    s.block.direction = p.dirInit ∧ s.trace = []) ∧
  ∃ p a d c, State.reset = State.powerOn p a d c

/-! ### The five operations: result and completion -/

/-- `CLK_FALL` completes in every state (R72; `clock_level` by R71, decisions D9, D24; direction in reset
by decision D18, log 15): address latched, pending set, direction derived unless in reset, nothing else. -/
def Obligations.ClkFallLatchesAndPends : Prop :=
  ∀ (a : Addr) (rw : Level) (s : State),
    exec (.clkFall a rw) s = .next
      { s with
        block :=
          { s.block with
            clockLevel := 0#1
            address := a
            direction :=
              if inReset s then s.block.direction
              else if rw = s.params.rwWriteLevel then .write else .read
            pending := true } }

/-- `CLK_RISE` completes in every state (R73): no-op, discard or emit, by `pending` and `in_reset`
(`clock_level` by R71, decisions D9, D24; the rollover bit by decision D6, log 4). -/
def Obligations.ClkRiseNoOpDiscardOrEmit : Prop :=
  ∀ (d : Byte) (s : State),
    exec (.clkRise d) s = .next
      (if s.block.pending = false then { s with block := { s.block with clockLevel := 1#1 } }
       else if s.block.resetLevel = s.params.resetAssertLevel then
         { s with block := { s.block with clockLevel := 1#1, pending := false } }
       else
         { s with
           block :=
             { s.block with
               clockLevel := 1#1
               data := d
               pending := false
               cycleCount := if s.block.cycleCount = 0xFFFF#16 then 0#16 else s.block.cycleCount + 1#16
               rolloverPending := s.block.rolloverPending || s.block.cycleCount == 0xFFFF#16 }
           trace :=
             s.trace ++ [.sample ⟨s.block.cycleCount, s.block.address, d, s.block.direction⟩] })

/-- `RES_LOW` and `RES_HIGH` complete in every state (R69, R70): the level is latched, and the counter is
cleared exactly when that level is the asserted one (the moment of the clear is decision D5, log 5). -/
def Obligations.ResetEventsLatchLevelAndClear : Prop :=
  ∀ s : State,
    exec .resLow s = .next
      { s with
        block :=
          { s.block with
            resetLevel := 0#1
            cycleCount := if s.params.resetAssertLevel = 0#1 then 0#16 else s.block.cycleCount } } ∧
    exec .resHigh s = .next
      { s with
        block :=
          { s.block with
            resetLevel := 1#1
            cycleCount := if s.params.resetAssertLevel = 1#1 then 0#16 else s.block.cycleCount } }

/-- `POLL` completes in every state (R90; one indivisible pass by decision D14, log 9; the rollover bit
by decision D6, log 4). -/
def Obligations.PollReportsResetElseRollover : Prop :=
  ∀ s : State,
    exec .poll s = .next
      (if s.block.resetLevel = s.params.resetAssertLevel then { s with trace := s.trace ++ [.statusReset] }
       else if s.block.rolloverPending then
         { s with
           block := { s.block with rolloverPending := false }
           trace := s.trace ++ [.rolloverNotice] }
       else s)

/-- `advance()` in closed form and `reset_counter()` (R83, R84; the sticky bit is decision D6, log 4). -/
def Obligations.CounterOperationsClosedForm : Prop :=
  ∀ s : State,
    (advance s).block.cycleCount.toNat = (s.block.cycleCount.toNat + 1) % 65536 ∧
    ((advance s).block.rolloverPending = true ↔
      s.block.rolloverPending = true ∨ s.block.cycleCount.toNat = 65535) ∧
    advance s =
      { s with
        block :=
          { s.block with
            cycleCount := (advance s).block.cycleCount
            rolloverPending := (advance s).block.rolloverPending } } ∧
    resetCounter s = { s with block := { s.block with cycleCount := 0#16 } }

/-! ### Rules of one operation, as the source states them -/

/-- R74, the discard case: nothing emitted, the counter not changed, address and direction kept, Armed
again, whatever the data lines show; and the source's property: falling edge, then reset asserted, then
rising edge emits no sample and does not increment the counter. -/
def Obligations.RiseInResetDiscardsPendingCycle : Prop :=
  (∀ (d : Byte) (s : State), s.block.pending = true → inReset s = true →
    ∃ c : Level,
      exec (.clkRise d) s = .next { s with block := { s.block with clockLevel := c, pending := false } }) ∧
  (∀ (a : Addr) (rw : Level) (d : Byte) (i : Instr) (s : State), assertsReset s.params i = true →
    ∃ u t, runEvents [.clkFall a rw, i] s = .next u ∧ exec (.clkRise d) u = .next t ∧
      t.trace = s.trace ∧ t.block.cycleCount = u.block.cycleCount ∧ t.block.pending = false)

/-- R76 and R97: a rising edge with nothing pending changes no field but `clock_level`, emits nothing, and
no later operation can tell that it happened: every later run gives the same trace. -/
def Obligations.SpuriousRiseIsUnobservable : Prop :=
  ∀ (d : Byte) (s : State), s.block.pending = false →
    (∃ c : Level, exec (.clkRise d) s = .next { s with block := { s.block with clockLevel := c } }) ∧
    ∀ (es : List Instr) (t t' : State),
      runEvents es s = .next t → runEvents (.clkRise d :: es) s = .next t' → t'.trace = t.trace

/-- R67: on any transition the reset flag takes the new level, whatever it was; `pending`, `address`,
`direction`, `clock_level`, `data` and `rollover_pending` are not touched, and nothing is emitted; the
handler reads no line other than `RES`: whatever the others show, it does the same. -/
def Obligations.ResetMonitorIsLevelLatch : Prop :=
  (∀ (s : State) (i : Instr) (l : Level), resetLevelRead i = some l →
    ∃ t, exec i s = .next t ∧
      t.block.resetLevel = l ∧ t.block.pending = s.block.pending ∧ t.block.address = s.block.address ∧
      t.block.direction = s.block.direction ∧ t.block.clockLevel = s.block.clockLevel ∧
      t.block.data = s.block.data ∧ t.block.rolloverPending = s.block.rolloverPending ∧
      t.trace = s.trace) ∧
  (∀ (s : State) (bus bus' : Bus), bus.res = bus'.res →
    (resetHandler bus s).block.resetLevel = bus.res ∧ resetHandler bus s = resetHandler bus' s)

/-- `RES_EDGE(L)` applied twice is the same as once (R68, decision D5, log 5). -/
def Obligations.ResetEdgeIsIdempotent : Prop :=
  ∀ (l : Level) (s : State), resEdge l (resEdge l s) = resEdge l s

/-- Frame of `CLK_FALL`: it writes `clock_level`, `address`, `direction` and `pending` only, and emits
nothing (R72, R27, R28). -/
def Obligations.ClkFallFrame : Prop :=
  ∀ (a : Addr) (rw : Level) (s t : State), exec (.clkFall a rw) s = .next t →
    t.block.resetLevel = s.block.resetLevel ∧ t.block.data = s.block.data ∧
    t.block.cycleCount = s.block.cycleCount ∧ t.block.rolloverPending = s.block.rolloverPending ∧
    t.params = s.params ∧ t.poll = s.poll ∧ t.inputs = s.inputs ∧ t.trace = s.trace

/-- Frame of `CLK_RISE`: `reset_level`, `address` and `direction` are never written; `data`, the counter,
the rollover bit and the trace only when it emits (R73, R27, R28; the rollover bit is decision D6, log
4). -/
def Obligations.ClkRiseFrame : Prop :=
  ∀ (d : Byte) (s t : State), exec (.clkRise d) s = .next t →
    t.block.resetLevel = s.block.resetLevel ∧ t.block.address = s.block.address ∧
    t.block.direction = s.block.direction ∧
    (emitting s = false →
      t.block.data = s.block.data ∧ t.block.cycleCount = s.block.cycleCount ∧
      t.block.rolloverPending = s.block.rolloverPending ∧ t.trace = s.trace) ∧
    t.params = s.params ∧ t.poll = s.poll ∧ t.inputs = s.inputs

/-- Frame of `RES_LOW`, `RES_HIGH` and `POLL`: a reset event writes `reset_level` and the counter only; a
poll writes the rollover bit and the trace only, so it never resets, loads or increments the counter and
never touches `pending` (R68, R90, R93; the clear is decision D5, log 5; the rollover bit is decision
D6, log 4; the poll is one indivisible pass by decision D14, log 9). -/
def Obligations.ResetAndPollFrame : Prop :=
  ∀ s t : State,
    (exec .resLow s = .next t ∨ exec .resHigh s = .next t →
      t = { s with
            block := { s.block with resetLevel := t.block.resetLevel, cycleCount := t.block.cycleCount } }) ∧
    (exec .poll s = .next t →
      t = { s with
            block := { s.block with rolloverPending := t.block.rolloverPending }
            trace := t.trace })

/-! ### Who writes each field, over all operations -/

/-- R15: `pending` is set by every `CLK_FALL`, cleared by a `CLK_RISE` that finds it set, left 0 by one that
finds it 0, and written by nothing else; it is 0 at power-on. -/
def Obligations.PendingSetByFallClearedByRise : Prop :=
  (∀ (i : Instr) (s : State), ∃ t, exec i s = .next t ∧
    t.block.pending =
      match i with
      | .clkFall _ _ => true
      | .clkRise _ => false
      | .resLow => s.block.pending
      | .resHigh => s.block.pending
      | .poll => s.block.pending) ∧
  State.reset.block.pending = false

/-- `reset_level` is written only by the two reset events, with the level read; `in_reset` is true at
power-on (R14). -/
def Obligations.ResetLevelWrittenOnlyByResetEvents : Prop :=
  (∀ (i : Instr) (s t : State), exec i s = .next t →
    t.block.resetLevel = (resetLevelRead i).getD s.block.resetLevel) ∧
  inReset State.reset = true

/-- `address` is written by every `CLK_FALL`, in reset or not, and by nothing else; `direction` by a
`CLK_FALL` taken while not in reset, and by nothing else (R17, R18; decision D18, log 15). -/
def Obligations.AddressAndDirectionWrittenOnlyByFall : Prop :=
  ∀ (i : Instr) (s t : State), exec i s = .next t →
    match i with
    | .clkFall a rw =>
      t.block.address = a ∧
      t.block.direction = (if inReset s then s.block.direction else directionOf s.params rw)
    | .clkRise _ => t.block.address = s.block.address ∧ t.block.direction = s.block.direction
    | .resLow => t.block.address = s.block.address ∧ t.block.direction = s.block.direction
    | .resHigh => t.block.address = s.block.address ∧ t.block.direction = s.block.direction
    | .poll => t.block.address = s.block.address ∧ t.block.direction = s.block.direction

/-- `clock_level` is the level the last clock handler read, a no-op rising edge included, and nothing else
writes it (R19, R71; decisions D9, D24, log 10). -/
def Obligations.ClockLevelIsLastLevelRead : Prop :=
  ∀ (i : Instr) (s t : State), exec i s = .next t →
    t.block.clockLevel =
      match i with
      | .clkFall _ _ => 0#1
      | .clkRise _ => 1#1
      | .resLow => s.block.clockLevel
      | .resHigh => s.block.clockLevel
      | .poll => s.block.clockLevel

/-- The counter counts emitted samples and nothing else: it moves by one, wrapping, exactly at an emitting
`CLK_RISE`, goes to 0 at a report of the asserted level, and is left alone by every other event (R21,
R87, R88; the moment of the clear is decision D5, log 5). -/
def Obligations.CounterCountsEmittedSamplesOnly : Prop :=
  ∀ (i : Instr) (s t : State), exec i s = .next t →
    (emits i s = true → t.block.cycleCount.toNat = (s.block.cycleCount.toNat + 1) % 65536) ∧
    (assertsReset s.params i = true → t.block.cycleCount = 0#16) ∧
    (emits i s = false → assertsReset s.params i = false → t.block.cycleCount = s.block.cycleCount) ∧
    (samplesOf t.trace).length = (samplesOf s.trace).length + (if emits i s then 1 else 0)

/-- `rollover_pending` is set only by a wrapping `advance()` and cleared only by the poll that reports it
(R22, R83, R92; decision D6, log 4). -/
def Obligations.RolloverBitSetByWrapClearedByReport : Prop :=
  ∀ (i : Instr) (s t : State), exec i s = .next t →
    (s.block.rolloverPending = false →
      (t.block.rolloverPending = true ↔ emits i s = true ∧ s.block.cycleCount = 0xFFFF#16)) ∧
    (s.block.rolloverPending = true →
      (t.block.rolloverPending = false ↔ i = .poll ∧ t.trace = s.trace ++ [.rolloverNotice]))

/-- The complete transition table of the Edge State Machine (R80; C10 and decision D13, log 12, fill two
cells). -/
def Obligations.EdgeStateMachineTable : Prop :=
  ∀ (i : Instr) (s t : State), exec i s = .next t →
    match phase s, i with
    | .armed, .clkFall a _ => phase t = .latched ∧ t.block.address = a ∧ t.trace = s.trace
    | .armed, .clkRise _ => phase t = .armed ∧ t.trace = s.trace
    | .armed, .resLow => phase t = .armed
    | .armed, .resHigh => phase t = .armed
    | .armed, .poll => phase t = .armed
    | .latched, .clkFall a _ => phase t = .latched ∧ t.block.address = a ∧ t.trace = s.trace
    | .latched, .clkRise d =>
      phase t = .armed ∧
      t.trace =
        (if inReset s then s.trace
         else s.trace ++ [.sample ⟨s.block.cycleCount, s.block.address, d, s.block.direction⟩])
    | .latched, .resLow => phase t = .latched
    | .latched, .resHigh => phase t = .latched
    | .latched, .poll => phase t = .latched

/-- Every event is answered by a next state in every state, no step faults, and a step is refused only for a
stimulus word that spells no event (R96; the refusal is R56, decision D10, log 17). -/
def Obligations.NoConditionIsFatal : Prop :=
  (∀ (i : Instr) (s : State), ∃ t, exec i s = .next t) ∧
  (∀ (s : State) (r : Fault), step s ≠ .fault r) ∧
  (∀ (s : State) (r : Refusal), step s = .refused r →
    ∃ w rest why, s.inputs = .word w :: rest ∧ decode w = .reserved why ∧ r = .reservedStimulus why w)

/-- Each anomaly is what R101 lists: `SpuriousRise`, `ResetMidCycle` and `DoubleFall` leave no record and no
mark, `Rollover` alone sets the rollover bit; without an anomaly the bit is not set (names and
`DoubleFall`: decision D13, log 12; the bit: decision D6, log 4). -/
def Obligations.OnlyRolloverLeavesAMark : Prop :=
  ∀ (i : Instr) (s t : State), exec i s = .next t →
    match anomalyOf i s with
    | some .spuriousRise => observable t = observable s
    | some .resetMidCycle => observable t = observable (s.setPending false)
    | some .doubleFall =>
      s.block.pending = true ∧ t.block.pending = true ∧ t.trace = s.trace ∧
      t.block.cycleCount = s.block.cycleCount ∧ t.block.rolloverPending = s.block.rolloverPending
    | some .rollover =>
      t.block.cycleCount = 0#16 ∧ t.block.rolloverPending = true ∧
      (samplesOf t.trace).length = (samplesOf s.trace).length + 1
    | none => t.block.rolloverPending = true → s.block.rolloverPending = true

/-! ### Invariants of every step -/

/-- While reset is asserted the counter is 0: every step keeps it, line transitions and split polls
included (R33 item 1, derived; the clear is decision D5, log 5). -/
def Obligations.StepKeepsCounterZeroInReset : Prop :=
  ∀ s t : State, CounterZeroInReset s → step s = .next t → CounterZeroInReset t

/-- The power-on state has the invariant, for every value of the parameters and latches (R32, R33). -/
def Obligations.PowerOnHasCounterZeroInReset : Prop :=
  (∀ (p : Params) (a : Addr) (d : Byte) (c : Level), CounterZeroInReset (State.powerOn p a d c)) ∧
  CounterZeroInReset State.reset

/-- Every step leaves the parameters alone, takes at most the oldest input, and appends at most one
record to the trace, never changing what was emitted (R24, R50, R61; logs 6 and 8). -/
def Obligations.StepAppendsAtMostOneRecord : Prop :=
  ∀ s t : State, step s = .next t →
    t.params = s.params ∧ t.inputs = s.inputs.tail ∧
    ∃ out : List OutputRecord, t.trace = s.trace ++ out ∧ out.length ≤ 1

/-! ### Whole runs -/

/-- Running a queue of stimulus words is folding the events through the operations (R9; queue: log 6). -/
def Obligations.QueuedWordsRunTheirEvents : Prop :=
  ∀ (es : List Instr) (s : State) (rest : List Input), s.inputs = wordsOf es ++ rest →
    Host.Core.run Sys2Proof.core es.length s = runEvents es { s with inputs := rest }

/-- R75: an emitting rising edge appends exactly one sample, of the count before the increment, the latched
address and direction and the data just read, and advances once; and over all sequences of full cycles
with reset de-asserted there is exactly one sample per pair, the indices running on from the count the
sequence starts at, modulo 65536, so from 0 where it starts after a reset or a rollover. -/
def Obligations.OneSamplePerPairIndexedByCount : Prop :=
  (∀ (d : Byte) (s : State), s.block.pending = true → inReset s = false →
    ∃ t, exec (.clkRise d) s = .next t ∧
      t.trace = s.trace ++ [.sample ⟨s.block.cycleCount, s.block.address, d, s.block.direction⟩] ∧
      t.block.cycleCount = (advance s).block.cycleCount ∧ t.block.pending = false) ∧
  (∀ (cs : List BusCycle) (s : State), inReset s = false →
    ∃ t, runEvents (cycleEvents cs) s = .next t ∧
      t.trace = s.trace ++
        cs.mapIdx (fun k c =>
          .sample ⟨s.block.cycleCount + BitVec.ofNat 16 k, c.a, c.d, directionOf s.params c.rw⟩))

/-- From any state, after any run whatever, the count is the number of samples emitted since the last
reset or rollover of the run, counting on from the count at its start where it has had neither; so
from power-on the count, which is the index the next sample carries, is the number of samples since
the last reset or rollover (R33 item 3, derived; that a report of the asserted level is where "reset"
starts the count again is decision D5, log 5). -/
def Obligations.CountIsSamplesSinceResetOrRollover : Prop :=
  (∀ (es : List Instr) (s t : State), runEvents es s = .next t →
    t.block.cycleCount.toNat = samplesSinceMark es s s.block.cycleCount.toNat) ∧
  (∀ (p : Params) (a : Addr) (d : Byte) (c : Level) (es : List Instr) (t : State),
    runEvents es (State.powerOn p a d c) = .next t →
    t.block.cycleCount.toNat = samplesSinceMark es (State.powerOn p a d c) 0 ∧
    ∀ (d' : Byte) (u : State), emitting t = true → exec (.clkRise d') t = .next u →
      ∃ b, u.trace = t.trace ++ [.sample b] ∧
        b.cycleIndex.toNat = samplesSinceMark es (State.powerOn p a d c) 0)

/-- After exactly 65536 completed cycles from a count of 0 with no reset between, the counter is 0 again,
the last sample carried 0xFFFF, the next poll gives the one `RolloverNotice`, a second poll gives
none, and the next cycle's sample carries 0 (R86; decision D6, log 4). -/
def Obligations.CounterWrapsAfter65536Cycles : Prop :=
  ∀ (cs : List BusCycle) (s : State), cs.length = 65536 → inReset s = false →
    s.block.cycleCount = 0#16 → s.block.rolloverPending = false →
    ∃ t, runEvents (cycleEvents cs) s = .next t ∧
      t.block.cycleCount = 0#16 ∧ t.block.rolloverPending = true ∧ t.block.pending = false ∧
      (samplesOf t.trace).length = (samplesOf s.trace).length + 65536 ∧
      (samplesOf t.trace).getLast?.map (fun b => b.cycleIndex) = some 0xFFFF#16 ∧
      ∀ c : BusCycle, ∃ u, runEvents (.poll :: .poll :: c.events) t = .next u ∧
        u.trace =
          t.trace ++ [.rolloverNotice, .sample ⟨0#16, c.a, c.d, directionOf s.params c.rw⟩]

/-- In reset every poll emits one `StatusReset` and looks at nothing else (R91); and while reset is held,
whatever the clock does, every poll produces one `StatusReset`, the counter remains 0, and no other
record is emitted. The last clause is of runs of the atomic `POLL` only (decision D14, log 9): R91 does
not say it, and `SplitPollCanReportRolloverInReset` gives the split run that breaks it. -/
def Obligations.HeldResetGivesOneStatusPerPoll : Prop :=
  (∀ s : State, inReset s = true →
    exec .poll s = .next { s with trace := s.trace ++ [.statusReset] }) ∧
  (∀ (es : List Instr) (s : State), inReset s = true → CounterZeroInReset s →
    (∀ i ∈ es, releasesReset s.params i = false) →
    ∃ t, runEvents es s = .next t ∧ inReset t = true ∧ t.block.cycleCount = 0#16 ∧
      t.trace = s.trace ++ List.replicate (es.count .poll) .statusReset)

/-- A signalled rollover outlives every event but a poll out of reset, resets included, and that poll
reports it, once (R84, R92; decision D6, log 4). The runs are of the atomic `POLL` (R94; decision D14,
log 9): that no notice appears while every poll falls in reset is false of the split one, as
`SplitPollCanReportRolloverInReset` shows. -/
def Obligations.RolloverIsReportedExactlyOnce : Prop :=
  ∀ (es : List Instr) (s : State), s.block.rolloverPending = true →
    along (fun i s => !(i == .poll && !inReset s)) es s = true →
    ∃ t, runEvents es s = .next t ∧ t.block.rolloverPending = true ∧
      OutputRecord.rolloverNotice ∉ t.trace.drop s.trace.length ∧
      (inReset t = false →
        ∃ u, runEvents [.poll, .poll] t = .next u ∧ u.trace = t.trace ++ [.rolloverNotice])

/-- R82: a missing rising edge leaves the machine Latched indefinitely: no list of events without a rising
edge leaves Latched, and no sample appears; reset events and polls work there exactly as they do in
Armed. -/
def Obligations.OnlyRiseLeavesLatched : Prop :=
  (∀ (es : List Instr) (s : State), s.block.pending = true → (∀ i ∈ es, isRise i = false) →
    ∃ t, runEvents es s = .next t ∧ phase t = .latched ∧ samplesOf t.trace = samplesOf s.trace) ∧
  (∀ (i : Instr) (s t : State), isClock i = false → exec i s = .next t →
    exec i (s.setPending true) = .next (t.setPending true))

/-- What no rule reads never shows: states that differ only in `clock_level`, `data`, and `address` while
nothing is pending give, over every run, the same trace and the same observable state (R17, R19, R20);
so the power-on values of those three are unobservable (R32). -/
def Obligations.UnreadLatchesNeverShow : Prop :=
  (∀ (es : List Instr) (s s' t t' : State), observable s = observable s' →
    runEvents es s = .next t → runEvents es s' = .next t' →
    t.trace = t'.trace ∧ observable t = observable t') ∧
  (∀ (p : Params) (a a' : Addr) (d d' : Byte) (c c' : Level),
    observable (State.powerOn p a d c) = observable (State.powerOn p a' d' c'))

/-- R43: every address is treated alike. Renaming the addresses of a run by any function whatever renames
them in the latch and the samples and changes nothing else. -/
def Obligations.NoAddressIsSpecial : Prop :=
  ∀ (f : Addr → Addr) (es : List Instr) (s t : State),
    runEvents es s = .next t →
    runEvents (es.map (renameEvent f)) (renameState f s) = .next (renameState f t)

/-- Stale direction (R77, derived): a falling edge while in reset, the release, a rising edge: the sample
has the address just latched and the direction left from before, whatever `RW` said. -/
def Obligations.FallInResetKeepsStaleDirection : Prop :=
  ∀ (a : Addr) (rw : Level) (d : Byte) (i : Instr) (s : State),
    inReset s = true → releasesReset s.params i = true →
    ∃ t, runEvents [.clkFall a rw, i, .clkRise d] s = .next t ∧
      t.trace = s.trace ++ [.sample ⟨s.block.cycleCount, a, d, s.block.direction⟩]

/-- Reset pulse inside a cycle (R81, decision D19, log 16; index 0, and count 1 after it, because the
assertion clears the counter: decision D5, log 5): asserted and released between the edges, the rising
edge emits, with index 0 and what was latched before the pulse. -/
def Obligations.ResetPulseInsideCycleStillEmits : Prop :=
  ∀ (d : Byte) (i j : Instr) (s : State), s.block.pending = true →
    assertsReset s.params i = true → releasesReset s.params j = true →
    ∃ t, runEvents [i, j, .clkRise d] s = .next t ∧
      t.trace = s.trace ++ [.sample ⟨0#16, s.block.address, d, s.block.direction⟩] ∧
      t.block.cycleCount = 1#16

/-- Doubled falling edge (R78, decision D13, log 12): the earlier half-cycle is lost without a record; it
is as if only the later falling edge had happened. -/
def Obligations.SecondFallOverwritesFirst : Prop :=
  ∀ (a a' : Addr) (rw rw' : Level) (s : State),
    runEvents [.clkFall a rw, .clkFall a' rw'] s = runEvents [.clkFall a' rw'] s

/-- ALT (R34; the premise: log 25): if clock events alternate, no falling edge finds a cycle pending: from
Armed, and, the last clock event having been a falling edge, from Latched; in the second case no rising
edge is spurious. -/
def Obligations.AlternationExcludesDoubleFall : Prop :=
  (∀ (es : List Instr) (s : State), s.block.pending = false → alternates es = true →
    noDoubleFall es s = true) ∧
  (∀ (es : List Instr) (s : State), s.block.pending = true → alternatesAfter (some 0#1) es = true →
    noDoubleFall es s = true ∧ noSpuriousRise es s = true)

/-- RELEASED-ARMED (R77, R118; C6; the premise: log 25): if no release of reset happens while a cycle is
pending, a sample carries the address and the direction of its own falling edge, whatever stands between
the edges. -/
def Obligations.ReleasedArmedGivesFaithfulDirection : Prop :=
  ∀ (a : Addr) (rw : Level) (mid : List Instr) (d : Byte) (s t : State),
    (∀ i ∈ mid, isClock i = false) →
    releasedArmed (.clkFall a rw :: mid) s = true →
    runEvents (.clkFall a rw :: mid) s = .next t → inReset t = false →
    ∃ u, exec (.clkRise d) t = .next u ∧
      u.trace = t.trace ++ [.sample ⟨t.block.cycleCount, a, d, directionOf s.params rw⟩]

/-- NO-PULSE (R81; the premise: log 25): if every assertion lasts across a rising edge, an assertion between
a falling and the next rising edge discards the cycle. -/
def Obligations.NoPulseMakesAssertionDiscard : Prop :=
  ∀ (mid : List Instr) (d : Byte) (s t : State),
    s.block.pending = true → inReset s = false →
    (∀ i ∈ mid, isClock i = false) → (∃ i ∈ mid, assertsReset s.params i = true) →
    noPulse mid s = true → runEvents mid s = .next t →
    ∃ u, exec (.clkRise d) t = .next u ∧ u.trace = t.trace ∧ u.block.pending = false

/-- FAITHFUL-SAMPLE (R41; log 25): if the events carry what the processor drove, a completed cycle reports
the address, direction and data of the bus, each at its own edge. -/
def Obligations.FaithfulEventsGiveFaithfulSamples : Prop :=
  ∀ (driven : Nat → Bus) (pre : List Instr) (a : Addr) (rw : Level) (d : Byte) (s t : State),
    FaithfulSample driven (pre ++ [.clkFall a rw, .clkRise d]) →
    runEvents pre s = .next t → inReset t = false →
    ∃ u, runEvents (pre ++ [.clkFall a rw, .clkRise d]) s = .next u ∧
      u.trace = t.trace ++
        [.sample ⟨t.block.cycleCount, sampleAddress (driven pre.length), sampleData (driven (pre.length + 1)),
          directionOf t.params (line (driven pre.length) .rw)⟩]

/-- POLL-FAIR (R95, decision D21; log 25; that it is held until then is the sticky bit of decision D6, log
4): in an unending run in which polls keep occurring and reset is never found asserted, a signalled
rollover is reported. -/
def Obligations.FairPollsReportRollover : Prop :=
  ∀ (e : Nat → Instr) (s : State), PollFair e → s.block.rolloverPending = true →
    (∀ n t, runEvents ((List.range n).map e) s = .next t → inReset t = false) →
    ∃ n t, runEvents ((List.range n).map e) s = .next t ∧
      OutputRecord.rolloverNotice ∈ t.trace.drop s.trace.length

/-- Order of a clock event and a reset event (R103, decision D7, log 11; that a falling edge in reset leaves
`direction` stale is decision D18, log 15): a rising edge with nothing pending, and any clock event
beside a report of the level already latched, commute; a rising edge with a cycle pending beside a
change of level never does; beside a falling edge the two orders differ at most in `direction`, derived
in one and left stale in the other. -/
def Obligations.RaceOrderMattersOnlyWhereListed : Prop :=
  ∀ (r : Instr) (l : Level) (s : State), resetLevelRead r = some l →
    (∀ (c : Instr) (t t' : State), isClock c = true →
      (l = s.block.resetLevel ∨ (isRise c = true ∧ s.block.pending = false)) →
      runEvents [c, r] s = .next t → runEvents [r, c] s = .next t' → observable t = observable t') ∧
    (∀ (d : Byte) (t t' : State), l ≠ s.block.resetLevel → s.block.pending = true →
      runEvents [.clkRise d, r] s = .next t → runEvents [r, .clkRise d] s = .next t' →
      t.trace ≠ t'.trace) ∧
    (∀ (a : Addr) (rw : Level) (t t' : State),
      runEvents [.clkFall a rw, r] s = .next t → runEvents [r, .clkFall a rw] s = .next t' →
      t' = t.setDirection t'.block.direction ∧
      t.block.direction = (if inReset s then s.block.direction else directionOf s.params rw) ∧
      t'.block.direction =
        (if l = s.params.resetAssertLevel then s.block.direction else directionOf s.params rw))

/-- `POLL_A` then `POLL_B` with nothing between is `POLL` (R94, decision D14, log 9). -/
def Obligations.SplitPollRefinesPoll : Prop :=
  ∀ (s : State) (rest : List Input), s.poll = .idle → s.inputs = .pollA :: .pollB :: rest →
    Host.Core.run Sys2Proof.core 2 s = exec .poll { s with inputs := rest }

/-- The behaviour the split adds (R94): with an assertion between the halves a `RolloverNotice` is emitted
while in reset; the atomic `POLL` never emits one in reset (decision D14, log 9; the rollover bit
outlives that assertion by decision D6, log 4). -/
def Obligations.SplitPollCanReportRolloverInReset : Prop :=
  (∀ (s t : State), inReset s = true → exec .poll s = .next t →
    t.trace = s.trace ++ [.statusReset]) ∧
  (∀ (s : State) (bus : Bus) (rest : List Input), inReset s = false → s.block.rolloverPending = true →
    bus.res = s.params.resetAssertLevel → s.inputs = .pollA :: .resetEdge bus :: .pollB :: rest →
    ∃ t, Host.Core.run Sys2Proof.core 3 s = .next t ∧ inReset t = true ∧
      t.trace = s.trace ++ [.rolloverNotice] ∧ t.block.rolloverPending = false ∧ t.poll = .idle)
end

