-- ==== Sys2Proof/Laws/State.lean ====
section
/-! SUPPORT. What each field update of Machine/Ops.lean does to each field: one lemma per field per
update, so that no later proof unfolds a record update. -/

namespace Sys2Proof.Machine

variable (s : State)

section
variable (v : Level)
@[simp] theorem State.setResetLevel_params : (s.setResetLevel v).params = s.params := rfl
@[simp] theorem State.setResetLevel_poll : (s.setResetLevel v).poll = s.poll := rfl
@[simp] theorem State.setResetLevel_inputs : (s.setResetLevel v).inputs = s.inputs := rfl
@[simp] theorem State.setResetLevel_trace : (s.setResetLevel v).trace = s.trace := rfl
@[simp] theorem State.setResetLevel_resetLevel : (s.setResetLevel v).block.resetLevel = v := rfl
@[simp] theorem State.setResetLevel_pending : (s.setResetLevel v).block.pending = s.block.pending := rfl
@[simp] theorem State.setResetLevel_address : (s.setResetLevel v).block.address = s.block.address := rfl
@[simp] theorem State.setResetLevel_direction : (s.setResetLevel v).block.direction = s.block.direction := rfl
@[simp] theorem State.setResetLevel_clockLevel : (s.setResetLevel v).block.clockLevel = s.block.clockLevel := rfl
@[simp] theorem State.setResetLevel_data : (s.setResetLevel v).block.data = s.block.data := rfl
@[simp] theorem State.setResetLevel_cycleCount : (s.setResetLevel v).block.cycleCount = s.block.cycleCount := rfl
@[simp] theorem State.setResetLevel_rolloverPending : (s.setResetLevel v).block.rolloverPending = s.block.rolloverPending := rfl
end

section
variable (v : Bool)
@[simp] theorem State.setPending_params : (s.setPending v).params = s.params := rfl
@[simp] theorem State.setPending_poll : (s.setPending v).poll = s.poll := rfl
@[simp] theorem State.setPending_inputs : (s.setPending v).inputs = s.inputs := rfl
@[simp] theorem State.setPending_trace : (s.setPending v).trace = s.trace := rfl
@[simp] theorem State.setPending_resetLevel : (s.setPending v).block.resetLevel = s.block.resetLevel := rfl
@[simp] theorem State.setPending_pending : (s.setPending v).block.pending = v := rfl
@[simp] theorem State.setPending_address : (s.setPending v).block.address = s.block.address := rfl
@[simp] theorem State.setPending_direction : (s.setPending v).block.direction = s.block.direction := rfl
@[simp] theorem State.setPending_clockLevel : (s.setPending v).block.clockLevel = s.block.clockLevel := rfl
@[simp] theorem State.setPending_data : (s.setPending v).block.data = s.block.data := rfl
@[simp] theorem State.setPending_cycleCount : (s.setPending v).block.cycleCount = s.block.cycleCount := rfl
@[simp] theorem State.setPending_rolloverPending : (s.setPending v).block.rolloverPending = s.block.rolloverPending := rfl
end

section
variable (v : Addr)
@[simp] theorem State.setAddress_params : (s.setAddress v).params = s.params := rfl
@[simp] theorem State.setAddress_poll : (s.setAddress v).poll = s.poll := rfl
@[simp] theorem State.setAddress_inputs : (s.setAddress v).inputs = s.inputs := rfl
@[simp] theorem State.setAddress_trace : (s.setAddress v).trace = s.trace := rfl
@[simp] theorem State.setAddress_resetLevel : (s.setAddress v).block.resetLevel = s.block.resetLevel := rfl
@[simp] theorem State.setAddress_pending : (s.setAddress v).block.pending = s.block.pending := rfl
@[simp] theorem State.setAddress_address : (s.setAddress v).block.address = v := rfl
@[simp] theorem State.setAddress_direction : (s.setAddress v).block.direction = s.block.direction := rfl
@[simp] theorem State.setAddress_clockLevel : (s.setAddress v).block.clockLevel = s.block.clockLevel := rfl
@[simp] theorem State.setAddress_data : (s.setAddress v).block.data = s.block.data := rfl
@[simp] theorem State.setAddress_cycleCount : (s.setAddress v).block.cycleCount = s.block.cycleCount := rfl
@[simp] theorem State.setAddress_rolloverPending : (s.setAddress v).block.rolloverPending = s.block.rolloverPending := rfl
end

section
variable (v : Direction)
@[simp] theorem State.setDirection_params : (s.setDirection v).params = s.params := rfl
@[simp] theorem State.setDirection_poll : (s.setDirection v).poll = s.poll := rfl
@[simp] theorem State.setDirection_inputs : (s.setDirection v).inputs = s.inputs := rfl
@[simp] theorem State.setDirection_trace : (s.setDirection v).trace = s.trace := rfl
@[simp] theorem State.setDirection_resetLevel : (s.setDirection v).block.resetLevel = s.block.resetLevel := rfl
@[simp] theorem State.setDirection_pending : (s.setDirection v).block.pending = s.block.pending := rfl
@[simp] theorem State.setDirection_address : (s.setDirection v).block.address = s.block.address := rfl
@[simp] theorem State.setDirection_direction : (s.setDirection v).block.direction = v := rfl
@[simp] theorem State.setDirection_clockLevel : (s.setDirection v).block.clockLevel = s.block.clockLevel := rfl
@[simp] theorem State.setDirection_data : (s.setDirection v).block.data = s.block.data := rfl
@[simp] theorem State.setDirection_cycleCount : (s.setDirection v).block.cycleCount = s.block.cycleCount := rfl
@[simp] theorem State.setDirection_rolloverPending : (s.setDirection v).block.rolloverPending = s.block.rolloverPending := rfl
end

section
variable (v : Level)
@[simp] theorem State.setClockLevel_params : (s.setClockLevel v).params = s.params := rfl
@[simp] theorem State.setClockLevel_poll : (s.setClockLevel v).poll = s.poll := rfl
@[simp] theorem State.setClockLevel_inputs : (s.setClockLevel v).inputs = s.inputs := rfl
@[simp] theorem State.setClockLevel_trace : (s.setClockLevel v).trace = s.trace := rfl
@[simp] theorem State.setClockLevel_resetLevel : (s.setClockLevel v).block.resetLevel = s.block.resetLevel := rfl
@[simp] theorem State.setClockLevel_pending : (s.setClockLevel v).block.pending = s.block.pending := rfl
@[simp] theorem State.setClockLevel_address : (s.setClockLevel v).block.address = s.block.address := rfl
@[simp] theorem State.setClockLevel_direction : (s.setClockLevel v).block.direction = s.block.direction := rfl
@[simp] theorem State.setClockLevel_clockLevel : (s.setClockLevel v).block.clockLevel = v := rfl
@[simp] theorem State.setClockLevel_data : (s.setClockLevel v).block.data = s.block.data := rfl
@[simp] theorem State.setClockLevel_cycleCount : (s.setClockLevel v).block.cycleCount = s.block.cycleCount := rfl
@[simp] theorem State.setClockLevel_rolloverPending : (s.setClockLevel v).block.rolloverPending = s.block.rolloverPending := rfl
end

section
variable (v : Byte)
@[simp] theorem State.setData_params : (s.setData v).params = s.params := rfl
@[simp] theorem State.setData_poll : (s.setData v).poll = s.poll := rfl
@[simp] theorem State.setData_inputs : (s.setData v).inputs = s.inputs := rfl
@[simp] theorem State.setData_trace : (s.setData v).trace = s.trace := rfl
@[simp] theorem State.setData_resetLevel : (s.setData v).block.resetLevel = s.block.resetLevel := rfl
@[simp] theorem State.setData_pending : (s.setData v).block.pending = s.block.pending := rfl
@[simp] theorem State.setData_address : (s.setData v).block.address = s.block.address := rfl
@[simp] theorem State.setData_direction : (s.setData v).block.direction = s.block.direction := rfl
@[simp] theorem State.setData_clockLevel : (s.setData v).block.clockLevel = s.block.clockLevel := rfl
@[simp] theorem State.setData_data : (s.setData v).block.data = v := rfl
@[simp] theorem State.setData_cycleCount : (s.setData v).block.cycleCount = s.block.cycleCount := rfl
@[simp] theorem State.setData_rolloverPending : (s.setData v).block.rolloverPending = s.block.rolloverPending := rfl
end

section
variable (v : Count)
@[simp] theorem State.setCycleCount_params : (s.setCycleCount v).params = s.params := rfl
@[simp] theorem State.setCycleCount_poll : (s.setCycleCount v).poll = s.poll := rfl
@[simp] theorem State.setCycleCount_inputs : (s.setCycleCount v).inputs = s.inputs := rfl
@[simp] theorem State.setCycleCount_trace : (s.setCycleCount v).trace = s.trace := rfl
@[simp] theorem State.setCycleCount_resetLevel : (s.setCycleCount v).block.resetLevel = s.block.resetLevel := rfl
@[simp] theorem State.setCycleCount_pending : (s.setCycleCount v).block.pending = s.block.pending := rfl
@[simp] theorem State.setCycleCount_address : (s.setCycleCount v).block.address = s.block.address := rfl
@[simp] theorem State.setCycleCount_direction : (s.setCycleCount v).block.direction = s.block.direction := rfl
@[simp] theorem State.setCycleCount_clockLevel : (s.setCycleCount v).block.clockLevel = s.block.clockLevel := rfl
@[simp] theorem State.setCycleCount_data : (s.setCycleCount v).block.data = s.block.data := rfl
@[simp] theorem State.setCycleCount_cycleCount : (s.setCycleCount v).block.cycleCount = v := rfl
@[simp] theorem State.setCycleCount_rolloverPending : (s.setCycleCount v).block.rolloverPending = s.block.rolloverPending := rfl
end

section
variable (v : Bool)
@[simp] theorem State.setRolloverPending_params : (s.setRolloverPending v).params = s.params := rfl
@[simp] theorem State.setRolloverPending_poll : (s.setRolloverPending v).poll = s.poll := rfl
@[simp] theorem State.setRolloverPending_inputs : (s.setRolloverPending v).inputs = s.inputs := rfl
@[simp] theorem State.setRolloverPending_trace : (s.setRolloverPending v).trace = s.trace := rfl
@[simp] theorem State.setRolloverPending_resetLevel : (s.setRolloverPending v).block.resetLevel = s.block.resetLevel := rfl
@[simp] theorem State.setRolloverPending_pending : (s.setRolloverPending v).block.pending = s.block.pending := rfl
@[simp] theorem State.setRolloverPending_address : (s.setRolloverPending v).block.address = s.block.address := rfl
@[simp] theorem State.setRolloverPending_direction : (s.setRolloverPending v).block.direction = s.block.direction := rfl
@[simp] theorem State.setRolloverPending_clockLevel : (s.setRolloverPending v).block.clockLevel = s.block.clockLevel := rfl
@[simp] theorem State.setRolloverPending_data : (s.setRolloverPending v).block.data = s.block.data := rfl
@[simp] theorem State.setRolloverPending_cycleCount : (s.setRolloverPending v).block.cycleCount = s.block.cycleCount := rfl
@[simp] theorem State.setRolloverPending_rolloverPending : (s.setRolloverPending v).block.rolloverPending = v := rfl
end

section
variable (v : PollPhase)
@[simp] theorem State.setPoll_params : (s.setPoll v).params = s.params := rfl
@[simp] theorem State.setPoll_poll : (s.setPoll v).poll = v := rfl
@[simp] theorem State.setPoll_inputs : (s.setPoll v).inputs = s.inputs := rfl
@[simp] theorem State.setPoll_trace : (s.setPoll v).trace = s.trace := rfl
@[simp] theorem State.setPoll_block : (s.setPoll v).block = s.block := rfl
end

section
variable (v : List Input)
@[simp] theorem State.setInputs_params : (s.setInputs v).params = s.params := rfl
@[simp] theorem State.setInputs_poll : (s.setInputs v).poll = s.poll := rfl
@[simp] theorem State.setInputs_inputs : (s.setInputs v).inputs = v := rfl
@[simp] theorem State.setInputs_trace : (s.setInputs v).trace = s.trace := rfl
@[simp] theorem State.setInputs_block : (s.setInputs v).block = s.block := rfl
end

section
variable (r : OutputRecord)
@[simp] theorem emit_params : (emit r s).params = s.params := rfl
@[simp] theorem emit_poll : (emit r s).poll = s.poll := rfl
@[simp] theorem emit_inputs : (emit r s).inputs = s.inputs := rfl
@[simp] theorem emit_trace : (emit r s).trace = s.trace ++ [r] := rfl
@[simp] theorem emit_block : (emit r s).block = s.block := rfl
end

end Sys2Proof.Machine
end

