-- ==== Sys2Proof/Laws/Ops.lean ====
section
/-! SUPPORT. One lemma per shared operation that says everything it does; later proofs cite these and
do not unfold the operations again. -/

namespace Sys2Proof.Machine

theorem inReset_iff (s : State) : inReset s = true ↔ s.block.resetLevel = s.params.resetAssertLevel := by
  simp [inReset]

/-- `in_reset` looks at the latched level and the parameter only. -/
theorem inReset_congr {s t : State} (hl : t.block.resetLevel = s.block.resetLevel) (hp : t.params = s.params) :
    inReset t = inReset s := by
  simp [inReset, hl, hp]

/-- `advance()` as one update of two fields. -/
theorem advance_eq (s : State) :
    advance s =
      { s with
        block :=
          { s.block with
            cycleCount := s.block.cycleCount + 1#16
            rolloverPending := s.block.rolloverPending || s.block.cycleCount == Config.cmax } } := by
  unfold advance
  split
  · rename_i h
    simp only [State.setCycleCount, State.setRolloverPending, h]
    simp [Config.cmax]
  · rename_i h
    simp [State.setCycleCount, h]

/-- `RES_EDGE(L)` as one update of two fields. -/
theorem resEdge_eq (l : Level) (s : State) :
    resEdge l s =
      { s with
        block :=
          { s.block with
            resetLevel := l
            cycleCount := if l = s.params.resetAssertLevel then 0#16 else s.block.cycleCount } } := by
  unfold resEdge
  by_cases h : l = s.params.resetAssertLevel
  · rw [if_pos h, if_pos h]; rfl
  · rw [if_neg h, if_neg h]; rfl

/-- Step 3 of the falling edge as one update of one field. -/
theorem deriveDirection_eq (rw : Level) (s : State) :
    deriveDirection rw s =
      s.setDirection (if inReset s then s.block.direction else directionOf s.params rw) := by
  unfold deriveDirection
  by_cases hr : inReset s = true <;> simp [hr, State.setDirection]

/-- The falling-edge procedure as one update of three fields. -/
theorem fallingProcedure_eq (a : Addr) (rw : Level) (s : State) :
    fallingProcedure a rw s =
      { s with
        block :=
          { s.block with
            address := a
            direction := if inReset s then s.block.direction else directionOf s.params rw
            pending := true } } := by
  rw [fallingProcedure, deriveDirection_eq]
  rfl

/-- The emitting case as one update of four fields and one record. -/
theorem emitSample_eq (d : Byte) (s : State) :
    emitSample d s =
      { s with
        block :=
          { s.block with
            data := d
            pending := false
            cycleCount := s.block.cycleCount + 1#16
            rolloverPending := s.block.rolloverPending || s.block.cycleCount == Config.cmax }
        trace := s.trace ++ [.sample (sampleRecord d s)] } := by
  simp [emitSample, advance_eq, emit, State.setData, State.setPending]

/-- The three cases of the rising edge; exactly one applies (R73). -/
theorem risingProcedure_cases (d : Byte) (s : State) :
    (s.block.pending = false ∧ risingProcedure d s = s) ∨
    (s.block.pending = true ∧ inReset s = true ∧ risingProcedure d s = s.setPending false) ∨
    (s.block.pending = true ∧ inReset s = false ∧ risingProcedure d s = emitSample d s) := by
  unfold risingProcedure
  by_cases hp : s.block.pending = true <;> by_cases hr : inReset s = true <;> simp [hp, hr]

/-- The three cases of a poll (R90). -/
theorem pollPass_cases (s : State) :
    (inReset s = true ∧ pollPass s = emit .statusReset s) ∨
    (inReset s = false ∧ s.block.rolloverPending = true ∧
      pollPass s = (emit .rolloverNotice s).setRolloverPending false) ∨
    (inReset s = false ∧ s.block.rolloverPending = false ∧ pollPass s = s) := by
  unfold pollPass reportRollover
  by_cases hr : inReset s = true <;> by_cases hp : s.block.rolloverPending = true <;> simp [hp, hr]

/-- The state an event leads to. -/
def afterEvent : Instr → State → State
  | .clkFall a rw, s => fallingProcedure a rw (s.setClockLevel 0#1)
  | .clkRise d, s => risingProcedure d (s.setClockLevel 1#1)
  | .resLow, s => resEdge 0#1 s
  | .resHigh, s => resEdge 1#1 s
  | .poll, s => pollPass s

/-- The one thing an event can do: lead to `afterEvent`. -/
theorem exec_eq_afterEvent (i : Instr) (s : State) : exec i s = .next (afterEvent i s) := by
  cases i <;> rfl

theorem exec_next_iff (i : Instr) (s t : State) : exec i s = .next t ↔ t = afterEvent i s := by
  rw [exec_eq_afterEvent]
  constructor
  · intro h; cases h; rfl
  · rintro rfl; rfl

end Sys2Proof.Machine
end

