-- ==== Sys2Proof/Laws/PerInstr.lean ====
section
/-! SUPPORT. Per-event families: a `Statement` over `Instr` as syntax and one lemma per constructor. -/

/-- The word of an event selects its own row of the table of R54 and no other. -/
def Sys2Proof.Laws.SelectsOwnRow.Statement (i : Sys2Proof.Instr) : Prop :=
  ∀ r ∈ Sys2Proof.opcodeTable, r.selects (Sys2Proof.encode i) = decide (r = Sys2Proof.rowOf i)

namespace Sys2Proof.Laws

/-- A row selects a word exactly when they agree at every bit its mask fixes. -/
theorem selects_iff (r : Row) (w : Stimulus) :
    r.selects w = true ↔ ∀ i < 24, (w.getLsbD i && r.mask.getLsbD i) = r.pattern.getLsbD i := by
  unfold Row.selects
  rw [beq_iff_eq]
  constructor
  · intro h i _
    rw [← BitVec.getLsbD_and, h]
  · intro h
    apply BitVec.eq_of_getLsbD_eq
    intro i hi
    rw [BitVec.getLsbD_and]; exact h i hi

/-- One bit on which a word and a row disagree is enough. -/
theorem selects_false (r : Row) (w : Stimulus) (i : Nat) (hi : i < 24)
    (h : (w.getLsbD i && r.mask.getLsbD i) ≠ r.pattern.getLsbD i) : r.selects w = false := by
  cases hs : r.selects w
  · rfl
  · exact absurd ((selects_iff r w).mp hs i hi) h

/-- Only the operands of a `CLK_FALL` word vary. -/
theorem encode_clkFall_bit (a : Addr) (rw : Level) (i : Nat) :
    (encode (.clkFall a rw)).getLsbD i =
      if i < 16 then a.getLsbD i else if i < 17 then rw.getLsbD (i - 16) else false := by
  simp only [encode, BitVec.getLsbD_append]
  by_cases h16 : i < 16
  · simp [h16]
  · by_cases h17 : i < 17
    · have : i = 16 := by omega
      subst this; simp
    · have : ¬ i - 16 < 1 := by omega
      simp [h16, h17, this]

/-- Only the operand of a `CLK_RISE` word varies. -/
theorem encode_clkRise_bit (d : Byte) (i : Nat) :
    (encode (.clkRise d)).getLsbD i = if i < 8 then d.getLsbD i else decide (i = 21) := by
  have h : encode (.clkRise d) = 0x2000#16 ++ d := by
    simp only [encode]; rfl
  rw [h, BitVec.getLsbD_append]
  by_cases h8 : i < 8
  · simp [h8]
  · simp only [h8]
    by_cases h24 : i < 24
    · interval_cases i <;> simp_all
    · have h21 : i ≠ 21 := by omega
      simp [h21, BitVec.getLsbD_of_ge (0x2000#16) (i - 8) (by omega)]

namespace SelectsOwnRow

theorem clkFall (a : Addr) (rw : Level) : Statement (.clkFall a rw) := by
  intro r hr
  simp only [opcodeTable, List.mem_cons, List.not_mem_nil, or_false] at hr
  rcases hr with rfl | rfl | rfl | rfl | rfl
  · rw [show decide (rowClkFall = rowOf (.clkFall a rw)) = true from rfl, selects_iff]
    intro i hi
    rw [encode_clkFall_bit]
    interval_cases i <;> simp [rowClkFall]
  · exact selects_false _ _ 21 (by omega) (by rw [encode_clkFall_bit]; simp [rowClkRise])
  · exact selects_false _ _ 22 (by omega) (by rw [encode_clkFall_bit]; simp [rowResLow])
  · exact selects_false _ _ 22 (by omega) (by rw [encode_clkFall_bit]; simp [rowResHigh])
  · exact selects_false _ _ 23 (by omega) (by rw [encode_clkFall_bit]; simp [rowPoll])

theorem clkRise (d : Byte) : Statement (.clkRise d) := by
  intro r hr
  simp only [opcodeTable, List.mem_cons, List.not_mem_nil, or_false] at hr
  rcases hr with rfl | rfl | rfl | rfl | rfl
  · exact selects_false _ _ 21 (by omega) (by rw [encode_clkRise_bit]; simp [rowClkFall])
  · rw [show decide (rowClkRise = rowOf (.clkRise d)) = true from rfl, selects_iff]
    intro i hi
    rw [encode_clkRise_bit]
    interval_cases i <;> simp [rowClkRise]
  · exact selects_false _ _ 22 (by omega) (by rw [encode_clkRise_bit]; simp [rowResLow])
  · exact selects_false _ _ 22 (by omega) (by rw [encode_clkRise_bit]; simp [rowResHigh])
  · exact selects_false _ _ 23 (by omega) (by rw [encode_clkRise_bit]; simp [rowPoll])

theorem resLow : Statement .resLow := by unfold Statement; decide
theorem resHigh : Statement .resHigh := by unfold Statement; decide
theorem poll : Statement .poll := by unfold Statement; decide

end SelectsOwnRow

end Sys2Proof.Laws
end

