-- ==== Sys2Proof/Laws/Step.lean ====
section
/-! SUPPORT. What a step and a run can do, said once: the two handlers are the events they are classified
as, a step is one of six things, and a run is a fold. -/

namespace Sys2Proof.Machine

theorem level_cases (l : Level) : l = 0#1 ∨ l = 1#1 := by revert l; decide

/-- The clock handler does what the event it is classified as does (R52, R71). -/
theorem clockHandler_eq (bus : Bus) (s : State) : clockHandler bus s = afterEvent (clockEvent bus) s := by
  rcases level_cases bus.clk with h | h <;>
    simp [clockHandler, clkEdge, line, clockEvent, h, afterEvent]

/-- The reset handler does what the event it is classified as does (R52, R68). -/
theorem resetHandler_eq (bus : Bus) (s : State) : resetHandler bus s = afterEvent (resetEvent bus) s := by
  rcases level_cases bus.res with h | h <;>
    simp [resetHandler, line, resetEvent, h, afterEvent]

/-- Everything a step that answers a next state can have done. -/
theorem step_next_cases {s t : State} (h : step s = .next t) :
    (s.inputs = [] ∧ t = s) ∨
    ∃ e rest, s.inputs = e :: rest ∧
      ((∃ w i, e = .word w ∧ decode w = .event i ∧ t = afterEvent i (s.setInputs rest)) ∨
       (∃ bus, e = .clockEdge bus ∧ t = afterEvent (clockEvent bus) (s.setInputs rest)) ∨
       (∃ bus, e = .resetEdge bus ∧ t = afterEvent (resetEvent bus) (s.setInputs rest)) ∨
       (e = .pollA ∧ t = pollFirstHalf (s.setInputs rest)) ∨
       (e = .pollB ∧ t = pollSecondHalf (s.setInputs rest))) := by
  rcases hin : s.inputs with _ | ⟨e, rest⟩
  · simp [step, nextInput, hin] at h
    exact .inl ⟨rfl, h.symm⟩
  · refine .inr ⟨e, rest, rfl, ?_⟩
    simp only [step, nextInput, hin] at h
    cases e with
    | word w =>
      simp only [runInput, runWord] at h
      split at h
      · rename_i i hd
        exact .inl ⟨w, i, rfl, hd, (exec_next_iff _ _ _).mp h⟩
      · cases h
    | clockEdge bus =>
      simp only [runInput, clockHandler_eq] at h; cases h
      exact .inr (.inl ⟨bus, rfl, rfl⟩)
    | resetEdge bus =>
      simp only [runInput, resetHandler_eq] at h; cases h
      exact .inr (.inr (.inl ⟨bus, rfl, rfl⟩))
    | pollA =>
      simp only [runInput] at h; cases h
      exact .inr (.inr (.inr (.inl ⟨rfl, rfl⟩)))
    | pollB =>
      simp only [runInput] at h; cases h
      exact .inr (.inr (.inr (.inr ⟨rfl, rfl⟩)))

/-- The state a run leads to. -/
def afterEvents : List Instr → State → State
  | [], s => s
  | i :: is, s => afterEvents is (afterEvent i s)

/-- The one thing a run can do: lead to `afterEvents`. -/
theorem runEvents_eq_afterEvents (es : List Instr) (s : State) : runEvents es s = .next (afterEvents es s) := by
  induction es generalizing s with
  | nil => rfl
  | cons i is ih => simp [runEvents, exec_eq_afterEvent, afterEvents, ih]

theorem runEvents_next_iff (es : List Instr) (s t : State) : runEvents es s = .next t ↔ t = afterEvents es s := by
  rw [runEvents_eq_afterEvents]
  constructor
  · intro h; cases h; rfl
  · rintro rfl; rfl

theorem afterEvents_append (es fs : List Instr) (s : State) :
    afterEvents (es ++ fs) s = afterEvents fs (afterEvents es s) := by
  induction es generalizing s with
  | nil => rfl
  | cons i is ih => simp [afterEvents, ih]

/-- No event touches the parameters, the inputs still to come or the supervisor's phase. -/
theorem afterEvent_frame (i : Instr) (s : State) :
    (afterEvent i s).params = s.params ∧ (afterEvent i s).inputs = s.inputs ∧
    (afterEvent i s).poll = s.poll := by
  cases i with
  | clkFall a rw => simp [afterEvent, fallingProcedure_eq]
  | clkRise d =>
    rcases risingProcedure_cases d (s.setClockLevel 1#1) with ⟨_, h⟩ | ⟨_, _, h⟩ | ⟨_, _, h⟩ <;>
      simp [afterEvent, h, emitSample_eq]
  | resLow => simp [afterEvent, resEdge_eq]
  | resHigh => simp [afterEvent, resEdge_eq]
  | poll =>
    rcases pollPass_cases s with ⟨_, h⟩ | ⟨_, _, h⟩ | ⟨_, _, h⟩ <;> simp [afterEvent, h]

/-- A poll leaves `in_reset` as it found it. -/
theorem inReset_pollPass (s : State) : inReset (pollPass s) = inReset s := by
  rcases pollPass_cases s with ⟨_, h⟩ | ⟨_, _, h⟩ | ⟨_, _, h⟩ <;> rw [h] <;> exact inReset_congr rfl rfl

end Sys2Proof.Machine
end

