-- ==== Sys2Proof/Tests/Slice0.lean ====
section
/-! SUPPORT. The model's own tests. Expected values are those of spec/95_test_vectors.md (V-…), of the
examples in the operations' rules, or worked from the encodings of R53 and R54; never the model's own
answers. The levels 0 and 0 of those vectors are the recommended ones (log 24). The witness_ theorems
show that the hypotheses of each statement can be met. -/

namespace Sys2Proof.Tests

open Sys2Proof.Machine

/-- `RESET_ASSERT_LEVEL = 0`, `RW_WRITE_LEVEL = 0`. -/
def p0 : Params := ⟨0#1, 0#1, .read⟩

/-- A state as 95_test_vectors.md writes it: `(reset_level, pending, address, direction, cycle_count,
rollover_pending)`, with `clock_level` 1 and `data` 0x77. -/
def st (rl : Level) (pending : Bool) (a : Addr) (dir : Direction) (n : Count) (ro : Bool) : State where
  params := p0
  block := ⟨rl, pending, a, dir, 1#1, 0x77#8, n, ro⟩
  poll := .idle
  inputs := []
  trace := []

/-- The state an event leads to, for comparing. -/
def go (i : Instr) (s : State) : State :=
  match exec i s with
  | .next t => t
  | .fault _ => s
  | .refused _ => s

/-! ### Well-formedness: each check refuses an ill-formed line -/

theorem test_wf_address_out_of_range : (TraceLine.clkFall 65536 0).wf = false := by decide
theorem test_wf_rw_out_of_range : (TraceLine.clkFall 0 2).wf = false := by decide
theorem test_wf_data_out_of_range : (TraceLine.clkRise 256).wf = false := by decide
theorem test_wf_cycle_address_out_of_range : (TraceLine.cycle 65536 0 0).wf = false := by decide
theorem test_wf_cycle_rw_out_of_range : (TraceLine.cycle 0 2 0).wf = false := by decide
theorem test_wf_cycle_data_out_of_range : (TraceLine.cycle 0 0 256).wf = false := by decide
theorem test_wf_largest_operands : (TraceLine.cycle 65535 1 255).wf = true := by decide

/-! ### Decoding: words written out field by field (src lvl zero rw opnd) -/

theorem test_decode_clkFall :
    decode 0b00_0_0000_1_0000000000000001#24 = .event (.clkFall 0x0001#16 1#1) := by decide
theorem test_decode_clkFall_write_level :
    decode 0b00_0_0000_0_1000000000000001#24 = .event (.clkFall 0x8001#16 0#1) := by decide
theorem test_decode_clkRise :
    decode 0b00_1_0000_0_0000000011101010#24 = .event (.clkRise 0xEA#8) := by decide
theorem test_decode_resLow : decode 0b01_0_0000_0_0000000000000000#24 = .event .resLow := by decide
theorem test_decode_resHigh : decode 0b01_1_0000_0_0000000000000000#24 = .event .resHigh := by decide
theorem test_decode_poll : decode 0b10_0_0000_0_0000000000000000#24 = .event .poll := by decide
theorem test_decode_reserved :
    [0x020000#24, 0x200100#24, 0x210000#24, 0x400001#24, 0xA00000#24, 0xC00000#24].map decode =
      [.reserved .zeroBits, .reserved .operandBits, .reserved .operandBits, .reserved .operandBits,
       .reserved .pollLevel, .reserved .source] := by decide
theorem test_encode_examples :
    [Instr.clkFall 0x0001#16 1#1, .clkRise 0xEA#8, .resLow, .resHigh, .poll].map encode =
      [0x010001#24, 0x2000EA#24, 0x400000#24, 0x600000#24, 0x800000#24] := by decide
theorem test_decodeTableWord_longer_than_a_word : decodeTableWord 25 0x1000000 = none := by decide

/-! ### Line sampling: the source's patterns (R37) -/

/-- `A0 = 1`, every other address line 0; `D7..D0 = 1 1 1 0 1 0 1 0`. -/
def bus0 (clk res rw : Level) : Bus :=
  ⟨clk, res, rw, #v[1, 0, 0, 0, 0, 0, 0, 0, 0, 0, 0, 0, 0, 0, 0, 0], #v[0, 1, 0, 1, 0, 1, 1, 1]⟩

theorem test_sampleAddress : sampleAddress (bus0 0 1 1) = 0x0001#16 := by decide
theorem test_sampleData : sampleData (bus0 1 1 1) = 0xEA#8 := by decide

/-! ### Operations: two vectors each at most -/

/-- V-D1: a write level gives Write. -/
theorem test_clkFall_write :
    (go (.clkFall 0x1234#16 0#1) (st 1 false 0xBEEF#16 .read 5 false)).block =
      ⟨1, true, 0x1234#16, .write, 0, 0x77#8, 5, false⟩ := by decide
/-- V-D4: in reset the direction is not updated though `rw` says write. -/
theorem test_clkFall_in_reset :
    (go (.clkFall 0xFFFC#16 0#1) (st 0 false 0xBEEF#16 .read 0 false)).block =
      ⟨0, true, 0xFFFC#16, .read, 0, 0x77#8, 0, false⟩ := by decide
/-- V-D9: discard; the data lines are not read. -/
theorem test_clkRise_discard :
    (go (.clkRise 0xFF#8) (st 0 true 0x1234#16 .read 0 false)).block =
      ⟨0, false, 0x1234#16, .read, 1, 0x77#8, 0, false⟩ := by decide
/-- V-D12: the wrap; the index is the count before it. -/
theorem test_clkRise_wrap :
    ((go (.clkRise 0x01#8) (st 1 true 0x0201#16 .read 0xFFFF#16 false)).block,
     (go (.clkRise 0x01#8) (st 1 true 0x0201#16 .read 0xFFFF#16 false)).trace) =
      (⟨1, false, 0x0201#16, .read, 1, 0x01#8, 0, true⟩,
       [.sample ⟨0xFFFF#16, 0x0201#16, 0x01#8, .read⟩]) := by decide
/-- V-D15: assertion; `pending` survives. -/
theorem test_resLow_asserts :
    (go .resLow (st 1 true 0x1234#16 .read 0x0123#16 false)).block =
      ⟨0, true, 0x1234#16, .read, 1, 0x77#8, 0, false⟩ := by decide
/-- V-D19: a repeated released level does not clear the counter. -/
theorem test_resHigh_repeated_release :
    (go .resHigh (st 1 false 0#16 .read 0x0042#16 false)).block.cycleCount = 0x0042#16 := by decide
/-- V-D15 with `RESET_ASSERT_LEVEL = 1`: the roles swap. -/
theorem test_resHigh_asserts_when_level_is_one :
    (go .resHigh { st 0 true 0x1234#16 .read 0x0123#16 false with params := ⟨1, 0, .read⟩ }).block.cycleCount =
      0#16 := by decide
/-- V-D22: the reset branch ignores the rollover bit. -/
theorem test_poll_in_reset :
    ((go .poll (st 0 true 0x1234#16 .read 0 true)).block.rolloverPending,
     (go .poll (st 0 true 0x1234#16 .read 0 true)).trace) = (true, [.statusReset]) := by decide
/-- V-D25: the counter at its bound is not a rollover. -/
theorem test_poll_at_bound :
    go .poll (st 1 false 0#16 .read 0xFFFF#16 false) = st 1 false 0#16 .read 0xFFFF#16 false := by decide

/-! ### Records: packed forms and text fields (95_test_vectors.md) -/

theorem test_pack_examples :
    (BusCycleSample.pack ⟨0x0000#16, 0x0001#16, 0xEA#8, .read⟩,
     BusCycleSample.pack ⟨0xFFFF#16, 0x0201#16, 0x01#8, .read⟩,
     BusCycleSample.pack ⟨0x0000#16, 0x8000#16, 0x55#8, .write⟩,
     BusCycleSample.pack ⟨0xFFFF#16, 0xFFFF#16, 0xFF#8, .write⟩) =
      (0x000000003D4#41, 0x1FFFE040202#41, 0x000010000AB#41, 0x1FFFFFFFFFF#41) := by decide
/-- V-S9. -/
theorem test_textFields :
    BusCycleSample.textFields ⟨0x0000#16, 0x0001#16, 0xEA#8, .read⟩ =
      ⟨[0, 0, 0, 0], [0, 0, 0, 0, 0, 0, 0, 0, 0, 0, 0, 0, 0, 0, 0, 1], [0, 0, 0, 1],
       [1, 1, 1, 0, 1, 0, 1, 0], [14, 10], 'r'⟩ := by decide

/-! ### Witnesses: the hypotheses of each statement can be met

Named after the statement; one conjunct per clause that has hypotheses of its own, at a boundary where
the clause speaks of a range. -/

/-- Out of reset, Latched. -/
def sLatched : State := st 1 true 0x0001#16 .read 0 false
/-- Out of reset, Armed. -/
def sArmed : State := st 1 false 0x0001#16 .read 0 false
/-- In reset, Latched. -/
def sReset : State := st 0 true 0x0001#16 .read 0 false
/-- Out of reset, Armed, a rollover not yet reported. -/
def sRollover : State := st 1 false 0x0001#16 .read 0 true

theorem witness_StepRunsDecodedEvent :
    ∃ t, (sArmed.setInputs [.word 0x010001#24]).inputs = .word 0x010001#24 :: [] ∧
      decode 0x010001#24 = .event (.clkFall 0x0001#16 1#1) ∧
      step (sArmed.setInputs [.word 0x010001#24]) = .next t := ⟨_, rfl, by decide, rfl⟩
theorem witness_StepRefusesReservedWord :
    (sArmed.setInputs [.word 0xC00000#24]).inputs = .word 0xC00000#24 :: [] ∧
    decode 0xC00000#24 = .reserved .source := ⟨rfl, by decide⟩
theorem witness_StepWithoutInputChangesNothing : State.reset.inputs = [] := rfl
theorem witness_FetchWordIsRunNext :
    24 ≤ 24 ∧ decodeTableWord 24 0x2000FF = some (.clkRise 0xFF#8) := by decide
theorem witness_EncodeOfDecodeIsIdentity :
    decode 0x01FFFF#24 = .event (.clkFall 0xFFFF#16 1#1) := by decide
theorem witness_NoWordSelectsTwoRows :
    rowClkRise ∈ opcodeTable ∧ rowClkRise ∈ opcodeTable ∧ rowClkRise.selects 0x2000FF#24 = true ∧
    rowClkRise.selects 0x2000FF#24 = true := by decide
theorem witness_FoldIsWeightedSumOfLines :
    (line (bus0 0 1 1) (.addr 0) = 1#1 ∧ ∀ k : Fin 16, k ≠ 0 → line (bus0 0 1 1) (.addr k) = 0#1) ∧
    [7, 6, 5, 4, 3, 2, 1, 0].map (fun k : Fin 8 => line (bus0 1 1 1) (.data k)) =
      [1#1, 1#1, 1#1, 0#1, 1#1, 0#1, 1#1, 0#1] := by decide
theorem witness_LineTransitionRunsClassifiedEvent :
    ((sArmed.setInputs [.clockEdge (bus0 0 1 1)]).inputs = .clockEdge (bus0 0 1 1) :: [] ∧
      (bus0 0 1 1).clk = 0#1) ∧
    ((sArmed.setInputs [.clockEdge (bus0 1 1 1)]).inputs = .clockEdge (bus0 1 1 1) :: [] ∧
      (bus0 1 1 1).clk = 1#1) ∧
    ((sArmed.setInputs [.resetEdge (bus0 0 0 1)]).inputs = .resetEdge (bus0 0 0 1) :: [] ∧
      (bus0 0 0 1).res = 0#1) ∧
    ((sArmed.setInputs [.resetEdge (bus0 0 1 1)]).inputs = .resetEdge (bus0 0 1 1) :: [] ∧
      (bus0 0 1 1).res = 1#1) := ⟨⟨rfl, rfl⟩, ⟨rfl, rfl⟩, ⟨rfl, rfl⟩, ⟨rfl, rfl⟩⟩
theorem witness_TraceShorthandsExpand :
    (2 ^ 16 ≤ 65536 ∨ 2 ≤ 0 ∨ 2 ^ 8 ≤ 0) ∧ (2 ^ 16 ≤ 0 ∨ 2 ≤ 2 ∨ 2 ^ 8 ≤ 0) ∧
    (2 ^ 16 ≤ 0 ∨ 2 ≤ 0 ∨ 2 ^ 8 ≤ 256) := by decide
theorem witness_RiseInResetDiscardsPendingCycle :
    (sReset.block.pending = true ∧ inReset sReset = true) ∧
    assertsReset sLatched.params .resLow = true := by decide
theorem witness_SpuriousRiseIsUnobservable :
    sArmed.block.pending = false ∧
    ∃ t t', runEvents [.clkFall 0x0001#16 0#1, .clkRise 0xEA#8] sArmed = .next t ∧
      runEvents (.clkRise 0x44#8 :: [.clkFall 0x0001#16 0#1, .clkRise 0xEA#8]) sArmed = .next t' :=
  ⟨rfl, _, _, rfl, rfl⟩
theorem witness_ResetMonitorIsLevelLatch :
    (resetLevelRead .resLow = some 0#1 ∧ resetLevelRead .resHigh = some 1#1) ∧
    (bus0 0 1 1).res = (bus0 1 1 0).res := by decide
theorem witness_ClkFallFrame : ∃ t, exec (.clkFall 0x0001#16 1#1) sReset = .next t := ⟨_, rfl⟩
theorem witness_ClkRiseFrame :
    ∃ t, exec (.clkRise 0xEA#8) sReset = .next t ∧ emitting sReset = false := ⟨_, rfl, by decide⟩
theorem witness_ResetAndPollFrame :
    ∃ t t' t'', exec .resLow sLatched = .next t ∧ exec .resHigh sLatched = .next t' ∧
      exec .poll sRollover = .next t'' := ⟨_, _, _, rfl, rfl, rfl⟩
theorem witness_ResetLevelWrittenOnlyByResetEvents : ∃ t, exec .resLow sLatched = .next t := ⟨_, rfl⟩
theorem witness_AddressAndDirectionWrittenOnlyByFall :
    ∃ t, exec (.clkFall 0xFFFF#16 0#1) sArmed = .next t := ⟨_, rfl⟩
theorem witness_ClockLevelIsLastLevelRead : ∃ t, exec (.clkRise 0#8) sArmed = .next t := ⟨_, rfl⟩
theorem witness_CounterCountsEmittedSamplesOnly :
    (∃ t, exec (.clkRise 0xEA#8) sLatched = .next t ∧ emits (.clkRise 0xEA#8) sLatched = true) ∧
    (∃ t, exec .resLow sLatched = .next t ∧ assertsReset sLatched.params .resLow = true) ∧
    (∃ t, exec .poll sLatched = .next t ∧ emits .poll sLatched = false ∧
      assertsReset sLatched.params .poll = false) :=
  ⟨⟨_, rfl, by decide⟩, ⟨_, rfl, by decide⟩, ⟨_, rfl, by decide, by decide⟩⟩
theorem witness_RolloverBitSetByWrapClearedByReport :
    (∃ t, exec (.clkRise 0#8) (st 1 true 0#16 .read 0xFFFF#16 false) = .next t ∧
      (st 1 true 0#16 .read 0xFFFF#16 false).block.rolloverPending = false) ∧
    (∃ t, exec .poll sRollover = .next t ∧ sRollover.block.rolloverPending = true) :=
  ⟨⟨_, rfl, rfl⟩, ⟨_, rfl, rfl⟩⟩
theorem witness_EdgeStateMachineTable :
    (∃ t, exec (.clkFall 0#16 0#1) sArmed = .next t ∧ phase sArmed = .armed) ∧
    (∃ t, exec (.clkRise 0#8) sLatched = .next t ∧ phase sLatched = .latched) :=
  ⟨⟨_, rfl, by decide⟩, ⟨_, rfl, by decide⟩⟩
theorem witness_NoConditionIsFatal :
    step (sArmed.setInputs [.word 0xC00000#24]) = .refused (.reservedStimulus .source 0xC00000#24) := rfl
theorem witness_OnlyRolloverLeavesAMark :
    anomalyOf (.clkRise 0#8) sArmed = some .spuriousRise ∧
    anomalyOf (.clkRise 0#8) sReset = some .resetMidCycle ∧
    anomalyOf (.clkFall 0#16 0#1) sLatched = some .doubleFall ∧
    anomalyOf (.clkRise 0#8) (st 1 true 0#16 .read 0xFFFF#16 false) = some .rollover ∧
    anomalyOf (.clkRise 0#8) (st 1 true 0#16 .read 0xFFFE#16 false) = none := by decide
theorem witness_StepKeepsCounterZeroInReset :
    CounterZeroInReset (sLatched.setInputs [.resetEdge (bus0 0 0 1)]) ∧
    ∃ t, step (sLatched.setInputs [.resetEdge (bus0 0 0 1)]) = .next t := ⟨fun _ => rfl, _, rfl⟩
theorem witness_StepAppendsAtMostOneRecord :
    ∃ t, step (sLatched.setInputs [.word 0x2000EA#24]) = .next t := ⟨_, rfl⟩
theorem witness_QueuedWordsRunTheirEvents :
    (sArmed.setInputs (wordsOf [.clkFall 0x0001#16 1#1, .clkRise 0xEA#8] ++ [.pollA])).inputs =
      wordsOf [.clkFall 0x0001#16 1#1, .clkRise 0xEA#8] ++ [.pollA] := rfl
theorem witness_OneSamplePerPairIndexedByCount :
    (sLatched.block.pending = true ∧ inReset sLatched = false) ∧ inReset sArmed = false := by decide
theorem witness_CountIsSamplesSinceResetOrRollover :
    (∃ t, runEvents [.clkRise 0xEA#8, .resLow] (st 1 true 0x0001#16 .read 0xFFFF#16 false) = .next t) ∧
    ∃ t u, runEvents [.resHigh, .clkFall 0x0001#16 1#1] (State.powerOn p0 0#16 0#8 0#1) = .next t ∧
      emitting t = true ∧ exec (.clkRise 0xEA#8) t = .next u := ⟨⟨_, rfl⟩, _, _, rfl, by decide, rfl⟩
theorem witness_CounterWrapsAfter65536Cycles :
    (List.replicate 65536 (⟨0#16, 1#1, 0#8⟩ : BusCycle)).length = 65536 ∧ inReset sArmed = false ∧
    sArmed.block.cycleCount = 0#16 ∧ sArmed.block.rolloverPending = false :=
  ⟨List.length_replicate, by decide, rfl, rfl⟩
theorem witness_HeldResetGivesOneStatusPerPoll :
    inReset sReset = true ∧ CounterZeroInReset sReset ∧
    ∀ i ∈ [Instr.clkFall 0xFFFC#16 1#1, .clkRise 0#8, .resLow, .poll],
      releasesReset sReset.params i = false := ⟨by decide, fun _ => rfl, by decide⟩
theorem witness_RolloverIsReportedExactlyOnce :
    sRollover.block.rolloverPending = true ∧
    along (fun i s => !(i == .poll && !inReset s)) [.resLow, .poll, .resHigh] sRollover = true ∧
    ∃ t, runEvents [.resLow, .poll, .resHigh] sRollover = .next t ∧ inReset t = false :=
  ⟨rfl, by decide, _, rfl, by decide⟩
theorem witness_OnlyRiseLeavesLatched :
    (sLatched.block.pending = true ∧
      ∀ i ∈ [Instr.clkFall 0#16 0#1, .resLow, .poll], isRise i = false) ∧
    (isClock .resLow = false ∧ ∃ t, exec .resLow sArmed = .next t) :=
  ⟨⟨rfl, by decide⟩, rfl, _, rfl⟩
theorem witness_UnreadLatchesNeverShow :
    observable sArmed = observable ((sArmed.setData 0x55#8).setAddress 0xFFFF#16) ∧
    ∃ t t', runEvents [.clkFall 0#16 1#1, .clkRise 0#8] sArmed = .next t ∧
      runEvents [.clkFall 0#16 1#1, .clkRise 0#8] ((sArmed.setData 0x55#8).setAddress 0xFFFF#16) = .next t' :=
  ⟨rfl, _, _, rfl, rfl⟩
theorem witness_NoAddressIsSpecial :
    ∃ t, runEvents [.clkFall 0xFFFC#16 1#1, .clkRise 0#8] sArmed = .next t := ⟨_, rfl⟩
theorem witness_FallInResetKeepsStaleDirection :
    inReset sReset = true ∧ releasesReset sReset.params .resHigh = true := by decide
theorem witness_ResetPulseInsideCycleStillEmits :
    sLatched.block.pending = true ∧ assertsReset sLatched.params .resLow = true ∧
    releasesReset sLatched.params .resHigh = true := by decide
theorem witness_AlternationExcludesDoubleFall :
    (sArmed.block.pending = false ∧
      alternates [.clkRise 0#8, .clkFall 0#16 0#1, .poll, .clkRise 0#8] = true) ∧
    (sLatched.block.pending = true ∧
      alternatesAfter (some 0#1) [.clkRise 0#8, .clkFall 0#16 0#1] = true) := by decide
theorem witness_ReleasedArmedGivesFaithfulDirection :
    (∀ i ∈ [Instr.poll, .resHigh], isClock i = false) ∧
    releasedArmed [.clkFall 0x0001#16 0#1, .poll, .resHigh] sArmed = true ∧
    ∃ t, runEvents [.clkFall 0x0001#16 0#1, .poll, .resHigh] sArmed = .next t ∧ inReset t = false :=
  ⟨by decide, by decide, _, rfl, by decide⟩
theorem witness_NoPulseMakesAssertionDiscard :
    sLatched.block.pending = true ∧ inReset sLatched = false ∧
    (∀ i ∈ [Instr.poll, .resLow, .poll], isClock i = false) ∧
    (∃ i ∈ [Instr.poll, .resLow, .poll], assertsReset sLatched.params i = true) ∧
    noPulse [.poll, .resLow, .poll] sLatched = true ∧
    ∃ t, runEvents [.poll, .resLow, .poll] sLatched = .next t :=
  ⟨rfl, by decide, by decide, by decide, by decide, _, rfl⟩
theorem witness_FaithfulEventsGiveFaithfulSamples :
    FaithfulSample (fun _ => bus0 0 1 1)
      ([] ++ [.clkFall (sampleAddress (bus0 0 1 1)) 1#1, .clkRise (sampleData (bus0 0 1 1))]) ∧
    ∃ t, runEvents [] sArmed = .next t ∧ inReset t = false := by
  refine ⟨?_, _, rfl, by decide⟩
  intro k i h
  match k with
  | 0 => cases h; exact ⟨rfl, rfl⟩
  | 1 => cases h; rfl
  | k + 2 => simp at h
theorem witness_FairPollsReportRollover :
    PollFair (fun _ => .poll) ∧ sRollover.block.rolloverPending = true ∧
    ∀ n t, runEvents ((List.range n).map fun _ => .poll) sRollover = .next t → inReset t = false := by
  refine ⟨fun n => ⟨n, Nat.le_refl n, rfl⟩, rfl, ?_⟩
  intro n t h
  rw [runEvents_next_iff] at h
  subst h
  have key : ∀ (l : List Nat) (s : State),
      inReset (afterEvents (l.map fun _ => .poll) s) = inReset s := by
    intro l
    induction l with
    | nil => intro s; rfl
    | cons _ l ih => intro s; exact (ih (pollPass s)).trans (inReset_pollPass s)
  exact key _ _
theorem witness_RaceOrderMattersOnlyWhereListed :
    (resetLevelRead .resHigh = some 1#1 ∧ isClock (.clkFall 0#16 0#1) = true ∧
      1#1 = sLatched.block.resetLevel) ∧
    (resetLevelRead .resLow = some 0#1 ∧ isRise (.clkRise 0#8) = true ∧ sArmed.block.pending = false) ∧
    (resetLevelRead .resLow = some 0#1 ∧ 0#1 ≠ sLatched.block.resetLevel ∧
      sLatched.block.pending = true) ∧
    ∃ t t', runEvents [.clkFall 0#16 0#1, .resLow] sArmed = .next t ∧
      runEvents [.resLow, .clkFall 0#16 0#1] sArmed = .next t' :=
  ⟨by decide, by decide, by decide, _, _, rfl, rfl⟩
theorem witness_SplitPollRefinesPoll :
    (sRollover.setInputs [.pollA, .pollB]).poll = .idle ∧
    (sRollover.setInputs [.pollA, .pollB]).inputs = .pollA :: .pollB :: [] := ⟨rfl, rfl⟩
theorem witness_SplitPollCanReportRolloverInReset :
    (inReset sReset = true ∧ ∃ t, exec .poll sReset = .next t) ∧
    (inReset sRollover = false ∧ sRollover.block.rolloverPending = true ∧
      (bus0 0 0 1).res = sRollover.params.resetAssertLevel ∧
      (sRollover.setInputs [.pollA, .resetEdge (bus0 0 0 1), .pollB]).inputs =
        .pollA :: .resetEdge (bus0 0 0 1) :: .pollB :: []) :=
  ⟨⟨by decide, _, rfl⟩, by decide, rfl, rfl, rfl⟩

end Sys2Proof.Tests
end

/-! SUPPORT. Scope proofs (00_scope.md): a stimulus word decodes to the event it spells, a step is `exec`
of that event on the queue's tail, and the queue rides along unread while an event runs. -/

section
namespace Sys2Proof

@[simp] theorem aField_encode_clkFall (a : Addr) (rw : Level) : aField (encode (.clkFall a rw)) = a := by
  apply BitVec.eq_of_getLsbD_eq
  intro k hk
  simp [aField, Laws.encode_clkFall_bit, hk]

@[simp] theorem rwField_encode_clkFall (a : Addr) (rw : Level) :
    rwField (encode (.clkFall a rw)) = rw := by
  apply BitVec.eq_of_getLsbD_eq
  intro k hk
  have hk0 : k = 0 := by omega
  subst hk0
  rw [rwField, BitVec.getLsbD_extractLsb', Laws.encode_clkFall_bit]
  simp

@[simp] theorem dField_encode_clkRise (d : Byte) : dField (encode (.clkRise d)) = d := by
  apply BitVec.eq_of_getLsbD_eq
  intro k hk
  simp [dField, Laws.encode_clkRise_bit, hk]

/-- The decoder takes the row the word selects (R54), and the fields are the operands (R55). -/
theorem decode_encode (i : Instr) : decode (encode i) = .event i := by
  cases i with
  | clkFall a rw =>
    have selected : rowClkFall.selects (encode (.clkFall a rw)) = true :=
      Laws.SelectsOwnRow.clkFall a rw rowClkFall (by decide)
    simp [decode, selected]
  | clkRise d =>
    have passed : rowClkFall.selects (encode (.clkRise d)) = false :=
      Laws.SelectsOwnRow.clkRise d rowClkFall (by decide)
    have selected : rowClkRise.selects (encode (.clkRise d)) = true :=
      Laws.SelectsOwnRow.clkRise d rowClkRise (by decide)
    simp [decode, passed, selected]
  | resLow => decide
  | resHigh => decide
  | poll => decide

/-- The stimulus word of a table word decodes to the event the table reader answers. -/
theorem decode_tableStimulus {nbits w : Nat} {i : Instr} (h : decodeTableWord nbits w = some i) :
    decode (Machine.tableStimulus nbits w) = .event i := by
  simp only [decodeTableWord] at h
  split at h
  · split at h
    · rename_i hd
      cases h
      exact hd
    · cases h
  · cases h

end Sys2Proof

namespace Sys2Proof.Machine

/-- A decodable word at the head of the queue: the step is its event, run on the tail (R9; log 6). -/
theorem step_word {s : State} {w : Stimulus} {rest : List Input} {i : Instr}
    (hin : s.inputs = .word w :: rest) (hd : decode w = .event i) :
    step s = exec i (s.setInputs rest) := by
  simp [step, nextInput, hin, runInput, runWord, hd]

@[simp] theorem afterEvent_inputs (i : Instr) (s : State) : (afterEvent i s).inputs = s.inputs := by
  obtain ⟨_, hinputs, _⟩ := afterEvent_frame i s
  exact hinputs

theorem risingProcedure_setInputs (d : Byte) (s : State) (rest : List Input) :
    risingProcedure d (s.setInputs rest) = (risingProcedure d s).setInputs rest := by
  simp only [risingProcedure, emitSample_eq, apply_ite (State.setInputs · rest)]
  rfl

theorem pollPass_setInputs (s : State) (rest : List Input) :
    pollPass (s.setInputs rest) = (pollPass s).setInputs rest := by
  simp only [pollPass, reportRollover, apply_ite (State.setInputs · rest)]
  rfl

/-- No event reads the queue, so running one and replacing the inputs still to come commute. -/
theorem afterEvent_setInputs (i : Instr) (s : State) (rest : List Input) :
    afterEvent i (s.setInputs rest) = (afterEvent i s).setInputs rest := by
  cases i with
  | clkFall a rw => simp only [afterEvent, fallingProcedure_eq]; rfl
  | clkRise d => exact risingProcedure_setInputs d (s.setClockLevel 1#1) rest
  | resLow => simp only [afterEvent, resEdge_eq]; rfl
  | resHigh => simp only [afterEvent, resEdge_eq]; rfl
  | poll => exact pollPass_setInputs s rest

theorem run_core_succ {s t : State} (h : step s = .next t) (k : Nat) :
    Host.Core.run Sys2Proof.core (k + 1) s = Host.Core.run Sys2Proof.core k t := by
  simp only [Host.Core.run, Host.Check.core_step, h]

/-- Settles O39, by induction on the events: each step is one event on the tail (`step_word`,
`decode_encode`), and the event commutes with dropping the words of the others. -/
theorem queuedWordsRunTheirEvents : Obligations.QueuedWordsRunTheirEvents := by
  unfold Obligations.QueuedWordsRunTheirEvents
  intro es
  induction es with
  | nil =>
    intro s rest hin
    subst hin
    rfl
  | cons i es ih =>
    intro s rest hin
    have hstep : step s = .next (afterEvent i (s.setInputs (wordsOf es ++ rest))) :=
      (step_word hin (decode_encode i)).trans (exec_eq_afterEvent i _)
    refine (run_core_succ hstep es.length).trans ((ih _ rest (afterEvent_inputs i _)).trans ?_)
    calc runEvents es ((afterEvent i (s.setInputs (wordsOf es ++ rest))).setInputs rest)
      _ = runEvents es (afterEvent i (s.setInputs rest)) := by rw [← afterEvent_setInputs]; rfl
      _ = runEvents (i :: es) (s.setInputs rest) := by simp only [runEvents, exec_eq_afterEvent]

/-- Settles O1: `step_word`, and no event touches the inputs still to come. -/
theorem stepRunsDecodedEvent : Obligations.StepRunsDecodedEvent := by
  unfold Obligations.StepRunsDecodedEvent
  intro s w rest i hin hd
  have hstep : step s = exec i (s.setInputs rest) := step_word hin hd
  refine ⟨hstep, fun t ht => ?_⟩
  obtain rfl := (exec_next_iff i _ t).mp (hstep.symm.trans ht)
  exact afterEvent_inputs i (s.setInputs rest)

/-- Settles O4: the table word is a decodable word at the head of the queue, and taking it off again gives
back the state it was put into. -/
theorem fetchWordIsRunNext : Obligations.FetchWordIsRunNext := by
  unfold Obligations.FetchWordIsRunNext
  intro s nbits w i _ hdec
  exact step_word rfl (decode_tableStimulus hdec)

end Sys2Proof.Machine
end

/-! SUPPORT. State proofs (10_state.md): what one event does to the state and the trace, one equation per
field over all five events, and from these who writes each field, the counter invariant of R33, and what
no rule reads. -/

section
namespace Sys2Proof.Machine

/-! ### The operations with cases, as one update each -/

theorem State.setPending_eq_self {s : State} {v : Bool} (h : s.block.pending = v) : s.setPending v = s := by
  subst h; rfl

theorem State.setRolloverPending_eq_self {s : State} {v : Bool} (h : s.block.rolloverPending = v) :
    s.setRolloverPending v = s := by
  subst h; rfl

/-- The rising edge as one update: `data`, the counter and the rollover bit follow `emitting` (R73). -/
theorem risingProcedure_eq (d : Byte) (s : State) :
    risingProcedure d s =
      { s with
        block :=
          { s.block with
            data := if emitting s then d else s.block.data
            pending := false
            cycleCount := if emitting s then s.block.cycleCount + 1#16 else s.block.cycleCount
            rolloverPending :=
              s.block.rolloverPending || (emitting s && s.block.cycleCount == Config.cmax) }
        trace := s.trace ++ if emitting s then [.sample (sampleRecord d s)] else [] } := by
  rcases risingProcedure_cases d s with ⟨hp, h⟩ | ⟨hp, hr, h⟩ | ⟨hp, hr, h⟩
  · have he : emitting s = false := by simp [emitting, hp]
    rw [h]
    conv_lhs => rw [← State.setPending_eq_self hp]
    simp [he, State.setPending]
  · have he : emitting s = false := by simp [emitting, hr]
    simp [h, he, State.setPending]
  · have he : emitting s = true := by simp [emitting, hp, hr]
    simp [h, he, emitSample_eq]

/-- The read-and-clear of the rollover bit as one update (R92). -/
theorem reportRollover_eq (s : State) :
    reportRollover s =
      { s with
        block := { s.block with rolloverPending := false }
        trace := s.trace ++ if s.block.rolloverPending then [.rolloverNotice] else [] } := by
  unfold reportRollover
  by_cases h : s.block.rolloverPending = true
  · simp [h, emit, State.setRolloverPending]
  · rw [if_neg h]
    conv_lhs => rw [← State.setRolloverPending_eq_self (Bool.eq_false_iff.mpr h)]
    simp [h, State.setRolloverPending]

/-- A poll as one update (R90). -/
theorem pollPass_eq (s : State) :
    pollPass s =
      { s with
        block := { s.block with rolloverPending := inReset s && s.block.rolloverPending }
        trace := s.trace ++
          if inReset s then [.statusReset]
          else if s.block.rolloverPending then [.rolloverNotice] else [] } := by
  unfold pollPass
  by_cases hr : inReset s = true
  · simp [hr, emit]
  · simp [hr, reportRollover_eq]

/-- `CLK_FALL` as one update of four fields (R72). -/
theorem afterEvent_clkFall (a : Addr) (rw : Level) (s : State) :
    afterEvent (.clkFall a rw) s =
      { s with
        block :=
          { s.block with
            address := a
            direction := if inReset s then s.block.direction else directionOf s.params rw
            pending := true
            clockLevel := 0#1 } } :=
  fallingProcedure_eq a rw (s.setClockLevel 0#1)

/-- `CLK_RISE` as one update (R73). -/
theorem afterEvent_clkRise (d : Byte) (s : State) :
    afterEvent (.clkRise d) s =
      { s with
        block :=
          { s.block with
            data := if emitting s then d else s.block.data
            pending := false
            cycleCount := if emitting s then s.block.cycleCount + 1#16 else s.block.cycleCount
            rolloverPending :=
              s.block.rolloverPending || (emitting s && s.block.cycleCount == Config.cmax)
            clockLevel := 1#1 }
        trace := s.trace ++ if emitting s then [.sample (sampleRecord d s)] else [] } :=
  risingProcedure_eq d (s.setClockLevel 1#1)

/-- `RES_LOW` as one update of two fields (R69). -/
theorem afterEvent_resLow (s : State) :
    afterEvent .resLow s =
      { s with
        block :=
          { s.block with
            resetLevel := 0#1
            cycleCount := if 0#1 = s.params.resetAssertLevel then 0#16 else s.block.cycleCount } } :=
  resEdge_eq 0#1 s

/-- `RES_HIGH` as one update of two fields (R70). -/
theorem afterEvent_resHigh (s : State) :
    afterEvent .resHigh s =
      { s with
        block :=
          { s.block with
            resetLevel := 1#1
            cycleCount := if 1#1 = s.params.resetAssertLevel then 0#16 else s.block.cycleCount } } :=
  resEdge_eq 1#1 s

/-- `POLL` as one update of one field and at most one record (R90). -/
theorem afterEvent_poll (s : State) :
    afterEvent .poll s =
      { s with
        block := { s.block with rolloverPending := inReset s && s.block.rolloverPending }
        trace := s.trace ++
          if inReset s then [.statusReset]
          else if s.block.rolloverPending then [.rolloverNotice] else [] } :=
  pollPass_eq s

/-! ### One equation per field, over all five events -/

/-- The level a clock event's handler reads (R52), as `resetLevelRead` is of a reset event. -/
def clockLevelRead : Instr → Option Level
  | .clkFall _ _ => some 0#1
  | .clkRise _ => some 1#1
  | .resLow => none
  | .resHigh => none
  | .poll => none

/-- The records an event appends to the trace (R61). -/
def recordsOf : Instr → State → List OutputRecord
  | .clkRise d, s => if emitting s then [.sample (sampleRecord d s)] else []
  | .poll, s =>
    if inReset s then [.statusReset] else if s.block.rolloverPending then [.rolloverNotice] else []
  | .clkFall _ _, _ => []
  | .resLow, _ => []
  | .resHigh, _ => []

@[simp] theorem afterEvent_params (i : Instr) (s : State) : (afterEvent i s).params = s.params := by
  obtain ⟨hparams, _, _⟩ := afterEvent_frame i s
  exact hparams

theorem afterEvent_trace (i : Instr) (s : State) :
    (afterEvent i s).trace = s.trace ++ recordsOf i s := by
  cases i with
  | clkFall a rw => simp [afterEvent_clkFall, recordsOf]
  | clkRise d => simp [afterEvent_clkRise, recordsOf]
  | resLow => simp [afterEvent_resLow, recordsOf]
  | resHigh => simp [afterEvent_resHigh, recordsOf]
  | poll => simp [afterEvent_poll, recordsOf]

theorem afterEvent_resetLevel (i : Instr) (s : State) :
    (afterEvent i s).block.resetLevel = (resetLevelRead i).getD s.block.resetLevel := by
  cases i with
  | clkFall a rw => simp [afterEvent_clkFall, resetLevelRead]
  | clkRise d => simp [afterEvent_clkRise, resetLevelRead]
  | resLow => simp [afterEvent_resLow, resetLevelRead]
  | resHigh => simp [afterEvent_resHigh, resetLevelRead]
  | poll => simp [afterEvent_poll, resetLevelRead]

theorem afterEvent_clockLevel (i : Instr) (s : State) :
    (afterEvent i s).block.clockLevel = (clockLevelRead i).getD s.block.clockLevel := by
  cases i with
  | clkFall a rw => simp [afterEvent_clkFall, clockLevelRead]
  | clkRise d => simp [afterEvent_clkRise, clockLevelRead]
  | resLow => simp [afterEvent_resLow, clockLevelRead]
  | resHigh => simp [afterEvent_resHigh, clockLevelRead]
  | poll => simp [afterEvent_poll, clockLevelRead]

/-- A clock event leaves a cycle pending exactly when it read level 0; the others do not touch it (R15). -/
theorem afterEvent_pending (i : Instr) (s : State) :
    (afterEvent i s).block.pending = ((clockLevelRead i).map (· == 0#1)).getD s.block.pending := by
  cases i with
  | clkFall a rw => simp [afterEvent_clkFall, clockLevelRead]
  | clkRise d => simp [afterEvent_clkRise, clockLevelRead]
  | resLow => simp [afterEvent_resLow, clockLevelRead]
  | resHigh => simp [afterEvent_resHigh, clockLevelRead]
  | poll => simp [afterEvent_poll, clockLevelRead]

/-- The counter's two writers: a report of the asserted level clears it, an emitting rise advances it (R21). -/
theorem afterEvent_cycleCount (i : Instr) (s : State) :
    (afterEvent i s).block.cycleCount =
      if assertsReset s.params i then 0#16
      else if emits i s then s.block.cycleCount + 1#16
      else s.block.cycleCount := by
  cases i with
  | clkFall a rw => simp [afterEvent_clkFall, assertsReset, resetLevelRead, emits, isRise]
  | clkRise d => simp [afterEvent_clkRise, assertsReset, resetLevelRead, emits, isRise]
  | resLow => simp [afterEvent_resLow, assertsReset, resetLevelRead, emits, isRise]
  | resHigh => simp [afterEvent_resHigh, assertsReset, resetLevelRead, emits, isRise]
  | poll => simp [afterEvent_poll, assertsReset, resetLevelRead, emits, isRise]

/-- The rollover bit's two writers: a wrapping emission sets it, a poll out of reset clears it (R22). -/
theorem afterEvent_rolloverPending (i : Instr) (s : State) :
    (afterEvent i s).block.rolloverPending =
      if i = .poll then inReset s && s.block.rolloverPending
      else s.block.rolloverPending || (emits i s && s.block.cycleCount == Config.cmax) := by
  cases i with
  | clkFall a rw => simp [afterEvent_clkFall, emits, isRise]
  | clkRise d => simp [afterEvent_clkRise, emits, isRise]
  | resLow => simp [afterEvent_resLow, emits, isRise]
  | resHigh => simp [afterEvent_resHigh, emits, isRise]
  | poll => simp [afterEvent_poll]

/-- A rising edge reads no reset level, so no event both emits and asserts reset. -/
theorem assertsReset_eq_false_of_emits {p : Params} {i : Instr} {s : State} (h : emits i s = true) :
    assertsReset p i = false := by
  cases i with
  | clkRise d => rfl
  | clkFall a rw => cases h
  | resLow => cases h
  | resHigh => cases h
  | poll => cases h

/-- Only an event that reads the asserted level takes the block into reset (R14). -/
theorem inReset_of_inReset_afterEvent {i : Instr} {s : State} (ha : assertsReset s.params i = false)
    (h : inReset (afterEvent i s) = true) : inReset s = true := by
  rw [inReset_iff, afterEvent_params, afterEvent_resetLevel] at h
  rw [inReset_iff]
  cases hl : resetLevelRead i with
  | none => simpa [hl] using h
  | some l => simp_all [assertsReset]

/-! ### The counter invariant of R33 item 1 -/

/-- The invariant looks at the counter, the latched level and the parameters only. -/
theorem counterZeroInReset_congr {s t : State} (hl : t.block.resetLevel = s.block.resetLevel)
    (hp : t.params = s.params) (hc : t.block.cycleCount = s.block.cycleCount) (h : CounterZeroInReset s) :
    CounterZeroInReset t := by
  intro hr
  rw [hc]
  exact h ((inReset_congr hl hp).symm.trans hr)

/-- Entering reset clears the counter, and while in reset nothing is emitted that could move it. -/
theorem counterZeroInReset_afterEvent {s : State} (i : Instr) (h : CounterZeroInReset s) :
    CounterZeroInReset (afterEvent i s) := by
  intro hr
  rw [afterEvent_cycleCount]
  by_cases ha : assertsReset s.params i = true
  · rw [if_pos ha]
  · have hreset : inReset s = true := inReset_of_inReset_afterEvent (by simpa using ha) hr
    have hemits : emits i s = false := by simp [emits, emitting, hreset]
    simp [ha, hemits, h hreset]

theorem counterZeroInReset_pollFirstHalf {s : State} (h : CounterZeroInReset s) :
    CounterZeroInReset (pollFirstHalf s) := by
  unfold pollFirstHalf
  split
  · exact counterZeroInReset_congr rfl rfl rfl h
  · exact counterZeroInReset_congr rfl rfl rfl h

theorem counterZeroInReset_pollSecondHalf {s : State} (h : CounterZeroInReset s) :
    CounterZeroInReset (pollSecondHalf s) := by
  unfold pollSecondHalf
  split
  · exact h
  · rw [reportRollover_eq]
    exact counterZeroInReset_congr rfl rfl rfl h

/-- Settles O36: taking the input off the queue keeps the invariant, and so does each thing it can do. -/
theorem stepKeepsCounterZeroInReset : Obligations.StepKeepsCounterZeroInReset := by
  unfold Obligations.StepKeepsCounterZeroInReset
  intro s t hs hstep
  have hqueue (rest : List Input) : CounterZeroInReset (s.setInputs rest) := hs
  rcases step_next_cases hstep with ⟨_, rfl⟩ | ⟨e, rest, _, hcase⟩
  · exact hs
  · rcases hcase with ⟨_, i, _, _, rfl⟩ | ⟨bus, _, rfl⟩ | ⟨bus, _, rfl⟩ | ⟨_, rfl⟩ | ⟨_, rfl⟩
    · exact counterZeroInReset_afterEvent i (hqueue rest)
    · exact counterZeroInReset_afterEvent (clockEvent bus) (hqueue rest)
    · exact counterZeroInReset_afterEvent (resetEvent bus) (hqueue rest)
    · exact counterZeroInReset_pollFirstHalf (hqueue rest)
    · exact counterZeroInReset_pollSecondHalf (hqueue rest)

theorem counterZeroInReset_powerOn (p : Params) (a : Addr) (d : Byte) (c : Level) :
    CounterZeroInReset (State.powerOn p a d c) := fun _ => rfl

/-- Settles O37: the power-on count is 0, and `State.reset` is a power-on state. -/
theorem powerOnHasCounterZeroInReset : Obligations.PowerOnHasCounterZeroInReset := by
  unfold Obligations.PowerOnHasCounterZeroInReset
  exact ⟨counterZeroInReset_powerOn, counterZeroInReset_powerOn _ _ _ _⟩

/-! ### What no rule reads -/

/-- No event reads what `observable` puts to zero: an event's observable result is the one it has from the
observable part alone. The address is read by an emitting rise only, which finds a cycle pending. -/
theorem observable_afterEvent (i : Instr) (s : State) :
    observable (afterEvent i s) = observable (afterEvent i (observable s)) := by
  obtain ⟨p, ⟨resetLevel, pending, a₀, dir, clockLevel, d₀, count, rollover⟩, phase, inputs, trace⟩ := s
  cases i with
  | clkFall a rw => rw [afterEvent_clkFall, afterEvent_clkFall]; rfl
  | clkRise d => rw [afterEvent_clkRise, afterEvent_clkRise]; cases pending <;> rfl
  | resLow => rw [afterEvent_resLow, afterEvent_resLow]; cases pending <;> rfl
  | resHigh => rw [afterEvent_resHigh, afterEvent_resHigh]; cases pending <;> rfl
  | poll => rw [afterEvent_poll, afterEvent_poll]; cases pending <;> rfl

theorem observable_afterEvents_congr {s s' : State} (es : List Instr) (h : observable s = observable s') :
    observable (afterEvents es s) = observable (afterEvents es s') := by
  induction es generalizing s s' with
  | nil => exact h
  | cons i es ih => exact ih (by rw [observable_afterEvent, h, ← observable_afterEvent])

theorem trace_eq_of_observable_eq {s t : State} (h : observable s = observable t) : s.trace = t.trace := by
  simpa [observable] using congrArg State.trace h

/-- Settles O46: runs keep agreement under `observable`, which covers the trace. -/
theorem unreadLatchesNeverShow : Obligations.UnreadLatchesNeverShow := by
  unfold Obligations.UnreadLatchesNeverShow
  refine ⟨fun es s s' t t' h ht ht' => ?_, fun p a a' d d' c c' => rfl⟩
  obtain rfl := (runEvents_next_iff es s t).mp ht
  obtain rfl := (runEvents_next_iff es s' t').mp ht'
  have hobs := observable_afterEvents_congr es h
  exact ⟨trace_eq_of_observable_eq hobs, hobs⟩

/-! ### Who writes each field -/

/-- Settles O27: `afterEvent_pending`, read off for each event. -/
theorem pendingSetByFallClearedByRise : Obligations.PendingSetByFallClearedByRise := by
  unfold Obligations.PendingSetByFallClearedByRise
  refine ⟨fun i s => ⟨afterEvent i s, exec_eq_afterEvent i s, ?_⟩, rfl⟩
  rw [afterEvent_pending]
  cases i <;> rfl

/-- Settles O28, by `afterEvent_resetLevel`; power-on latches the asserted level. -/
theorem resetLevelWrittenOnlyByResetEvents : Obligations.ResetLevelWrittenOnlyByResetEvents := by
  unfold Obligations.ResetLevelWrittenOnlyByResetEvents
  refine ⟨fun i s t ht => ?_, (inReset_iff _).mpr rfl⟩
  obtain rfl := (exec_next_iff i s t).mp ht
  exact afterEvent_resetLevel i s

/-- Settles O30: `afterEvent_clockLevel`, read off for each event. -/
theorem clockLevelIsLastLevelRead : Obligations.ClockLevelIsLastLevelRead := by
  unfold Obligations.ClockLevelIsLastLevelRead
  intro i s t ht
  obtain rfl := (exec_next_iff i s t).mp ht
  rw [afterEvent_clockLevel]
  cases i <;> rfl

/-- Settles O29: the falling edge's two writes, and the frame of the other four events. -/
theorem addressAndDirectionWrittenOnlyByFall : Obligations.AddressAndDirectionWrittenOnlyByFall := by
  unfold Obligations.AddressAndDirectionWrittenOnlyByFall
  intro i s t ht
  obtain rfl := (exec_next_iff i s t).mp ht
  cases i with
  | clkFall a rw => simp [afterEvent_clkFall]
  | clkRise d => simp [afterEvent_clkRise]
  | resLow => simp [afterEvent_resLow]
  | resHigh => simp [afterEvent_resHigh]
  | poll => simp [afterEvent_poll]

theorem samplesOf_append (xs ys : List OutputRecord) :
    samplesOf (xs ++ ys) = samplesOf xs ++ samplesOf ys := List.filterMap_append

/-- One sample for an emitting rise, none for anything else; the notices of a poll are no samples (R61). -/
theorem length_samplesOf_recordsOf (i : Instr) (s : State) :
    (samplesOf (recordsOf i s)).length = if emits i s then 1 else 0 := by
  cases i with
  | clkFall a rw => rfl
  | clkRise d => by_cases he : emitting s = true <;> simp [recordsOf, emits, isRise, he, samplesOf]
  | resLow => rfl
  | resHigh => rfl
  | poll =>
    rw [show emits .poll s = false from rfl, recordsOf]
    cases inReset s <;> cases s.block.rolloverPending <;> rfl

/-- Settles O31, by `afterEvent_cycleCount` and the samples among the event's records. -/
theorem counterCountsEmittedSamplesOnly : Obligations.CounterCountsEmittedSamplesOnly := by
  unfold Obligations.CounterCountsEmittedSamplesOnly
  intro i s t ht
  obtain rfl := (exec_next_iff i s t).mp ht
  rw [afterEvent_cycleCount, afterEvent_trace, samplesOf_append, List.length_append,
    length_samplesOf_recordsOf]
  refine ⟨fun he => ?_, fun ha => if_pos ha, fun he ha => by simp [he, ha], rfl⟩
  simp [assertsReset_eq_false_of_emits he, he, BitVec.toNat_add]

/-- A poll reports the rollover exactly when it is out of reset and the bit is set (R92). -/
theorem recordsOf_poll_eq_rolloverNotice_iff (s : State) :
    recordsOf .poll s = [.rolloverNotice] ↔ inReset s = false ∧ s.block.rolloverPending = true := by
  cases hr : inReset s <;> simp [recordsOf, hr]

/-- Settles O32, by `afterEvent_rolloverPending`. -/
theorem rolloverBitSetByWrapClearedByReport : Obligations.RolloverBitSetByWrapClearedByReport := by
  unfold Obligations.RolloverBitSetByWrapClearedByReport
  intro i s t ht
  obtain rfl := (exec_next_iff i s t).mp ht
  rw [afterEvent_rolloverPending, afterEvent_trace, List.append_cancel_left_eq]
  by_cases hpoll : i = .poll
  · subst hpoll
    refine ⟨fun hclear => by simp [hclear, emits, isRise], fun hset => ?_⟩
    rw [recordsOf_poll_eq_rolloverNotice_iff]
    simp [hset]
  · exact ⟨fun hclear => by simp [hpoll, hclear, Config.cmax], fun hset => by simp [hpoll, hset]⟩

/-! ### What a step appends -/

/-- From `s` to `t` the parameters and the queue stay, and at most one record is appended. -/
def AppendsAtMostOne (s t : State) : Prop :=
  t.params = s.params ∧ t.inputs = s.inputs ∧
    ∃ out : List OutputRecord, t.trace = s.trace ++ out ∧ out.length ≤ 1

theorem length_recordsOf_le_one (i : Instr) (s : State) : (recordsOf i s).length ≤ 1 := by
  cases i with
  | clkFall a rw => simp [recordsOf]
  | clkRise d => simp only [recordsOf]; split_ifs <;> simp
  | resLow => simp [recordsOf]
  | resHigh => simp [recordsOf]
  | poll => simp only [recordsOf]; split_ifs <;> simp

theorem appendsAtMostOne_afterEvent (i : Instr) (s : State) : AppendsAtMostOne s (afterEvent i s) :=
  ⟨afterEvent_params i s, afterEvent_inputs i s, recordsOf i s, afterEvent_trace i s,
    length_recordsOf_le_one i s⟩

theorem appendsAtMostOne_refl (s : State) : AppendsAtMostOne s s := ⟨rfl, rfl, [], by simp, by simp⟩

theorem appendsAtMostOne_pollFirstHalf (s : State) : AppendsAtMostOne s (pollFirstHalf s) := by
  unfold pollFirstHalf
  split
  · exact ⟨rfl, rfl, [.statusReset], rfl, le_rfl⟩
  · exact appendsAtMostOne_refl s

theorem appendsAtMostOne_pollSecondHalf (s : State) : AppendsAtMostOne s (pollSecondHalf s) := by
  unfold pollSecondHalf
  split
  · exact appendsAtMostOne_refl s
  · rw [reportRollover_eq]
    exact ⟨rfl, rfl, _, rfl, by split <;> simp⟩

/-- Settles O38: the queue loses its head, and what is then run appends at most one record. -/
theorem stepAppendsAtMostOneRecord : Obligations.StepAppendsAtMostOneRecord := by
  unfold Obligations.StepAppendsAtMostOneRecord
  intro s t hstep
  rcases step_next_cases hstep with ⟨hin, rfl⟩ | ⟨e, rest, hin, hcase⟩
  · exact ⟨rfl, by simp [hin], [], by simp, by simp⟩
  · rw [hin, List.tail_cons]
    change AppendsAtMostOne (s.setInputs rest) t
    rcases hcase with ⟨_, i, _, _, rfl⟩ | ⟨bus, _, rfl⟩ | ⟨bus, _, rfl⟩ | ⟨_, rfl⟩ | ⟨_, rfl⟩
    · exact appendsAtMostOne_afterEvent i _
    · exact appendsAtMostOne_afterEvent (clockEvent bus) _
    · exact appendsAtMostOne_afterEvent (resetEvent bus) _
    · exact appendsAtMostOne_pollFirstHalf _
    · exact appendsAtMostOne_pollSecondHalf _

/-! ### The count as a number of samples -/

theorem toNat_count_succ (n : Count) : (n + 1#16).toNat = if n = Config.cmax then 0 else n.toNat + 1 := by
  by_cases h : n = Config.cmax
  · rw [if_pos h, h]; rfl
  · have hne : n.toNat ≠ 65535 := fun hmax => h (BitVec.eq_of_toNat_eq hmax)
    have hlt : n.toNat < 65536 := n.isLt
    rw [if_neg h, BitVec.toNat_add]
    exact Nat.mod_eq_of_lt (by simp; omega)

/-- The count after an event, as a number: it moves as `samplesSinceMark` counts (R83). -/
theorem toNat_cycleCount_afterEvent (i : Instr) (s : State) :
    (afterEvent i s).block.cycleCount.toNat =
      if assertsReset s.params i then 0
      else if emits i s then
        (if s.block.cycleCount = Config.cmax then 0 else s.block.cycleCount.toNat + 1)
      else s.block.cycleCount.toNat := by
  rw [afterEvent_cycleCount]
  split
  · rfl
  · split
    · exact toNat_count_succ s.block.cycleCount
    · rfl

theorem toNat_cycleCount_afterEvents (es : List Instr) (s : State) :
    (afterEvents es s).block.cycleCount.toNat = samplesSinceMark es s s.block.cycleCount.toNat := by
  induction es generalizing s with
  | nil => rfl
  | cons i es ih =>
    rw [samplesSinceMark, exec_eq_afterEvent, ← toNat_cycleCount_afterEvent]
    exact ih (afterEvent i s)

/-- Settles O41: the count moves as `samplesSinceMark` does, and the next sample's index is the count. -/
theorem countIsSamplesSinceResetOrRollover : Obligations.CountIsSamplesSinceResetOrRollover := by
  unfold Obligations.CountIsSamplesSinceResetOrRollover
  constructor
  · intro es s t ht
    obtain rfl := (runEvents_next_iff es s t).mp ht
    exact toNat_cycleCount_afterEvents es s
  · intro p a d c es t ht
    obtain rfl := (runEvents_next_iff es _ t).mp ht
    have hcount := toNat_cycleCount_afterEvents es (State.powerOn p a d c)
    refine ⟨hcount, fun d' u hemit hu => ?_⟩
    obtain rfl := (exec_next_iff _ _ u).mp hu
    exact ⟨sampleRecord d' _, by rw [afterEvent_trace]; simp [recordsOf, hemit], hcount⟩

/-! ### Alternating clock events -/

/-- ALT allows this event after a clock event of level `last`. -/
def MayFollow (last : Option Level) (i : Instr) : Prop := ∀ l, clockLevelRead i = some l → last ≠ some l

/-- The level of the last clock event once `i` has happened too. -/
def lastClockLevel (last : Option Level) (i : Instr) : Option Level := (clockLevelRead i).or last

theorem alternatesAfter_cons (last : Option Level) (i : Instr) (is : List Instr) :
    alternatesAfter last (i :: is) = true ↔
      MayFollow last i ∧ alternatesAfter (lastClockLevel last i) is = true := by
  cases i with
  | clkFall a rw => simp [alternatesAfter, MayFollow, lastClockLevel, clockLevelRead]
  | clkRise d => simp [alternatesAfter, MayFollow, lastClockLevel, clockLevelRead]
  | resLow => simp [alternatesAfter, MayFollow, lastClockLevel, clockLevelRead]
  | resHigh => simp [alternatesAfter, MayFollow, lastClockLevel, clockLevelRead]
  | poll => simp [alternatesAfter, MayFollow, lastClockLevel, clockLevelRead]

/-- What holds of each event under an invariant of the state and the last clock event holds along every
run whose clock events alternate. -/
theorem along_of_alternatesAfter {P : Instr → State → Bool} {I : Option Level → State → Prop}
    (hP : ∀ last i s, I last s → MayFollow last i → P i s = true)
    (hI : ∀ last i s, I last s → I (lastClockLevel last i) (afterEvent i s))
    {es : List Instr} {last : Option Level} {s : State} (hs : I last s)
    (halt : alternatesAfter last es = true) : along P es s = true := by
  induction es generalizing last s with
  | nil => rfl
  | cons i es ih =>
    obtain ⟨hfollow, hrest⟩ := (alternatesAfter_cons last i es).mp halt
    rw [along, exec_eq_afterEvent, hP last i s hs hfollow, Bool.true_and]
    exact ih (hI last i s hs) hrest

/-- A cycle is pending only when the last clock event was a falling edge. -/
def ArmedUnlessFell (last : Option Level) (s : State) : Prop := last ≠ some 0#1 → s.block.pending = false

/-- The converse: a cycle is pending unless the last clock event was a rising edge. -/
def LatchedUnlessRose (last : Option Level) (s : State) : Prop := last ≠ some 1#1 → s.block.pending = true

theorem armedUnlessFell_afterEvent (last : Option Level) (i : Instr) (s : State)
    (h : ArmedUnlessFell last s) : ArmedUnlessFell (lastClockLevel last i) (afterEvent i s) := by
  unfold ArmedUnlessFell at h ⊢
  rw [afterEvent_pending, lastClockLevel]
  cases hl : clockLevelRead i with
  | none => exact h
  | some l => simp

theorem latchedUnlessRose_afterEvent (last : Option Level) (i : Instr) (s : State)
    (h : LatchedUnlessRose last s) : LatchedUnlessRose (lastClockLevel last i) (afterEvent i s) := by
  unfold LatchedUnlessRose at h ⊢
  rw [afterEvent_pending, lastClockLevel]
  cases hl : clockLevelRead i with
  | none => exact h
  | some l => rcases level_cases l with rfl | rfl <;> simp

theorem anomalyOf_eq_doubleFall_iff (i : Instr) (s : State) :
    anomalyOf i s = some .doubleFall ↔ clockLevelRead i = some 0#1 ∧ s.block.pending = true := by
  cases i with
  | clkFall a rw => simp [anomalyOf, clockLevelRead]
  | clkRise d => simp only [anomalyOf, clockLevelRead]; split_ifs <;> simp
  | resLow => simp [anomalyOf, clockLevelRead]
  | resHigh => simp [anomalyOf, clockLevelRead]
  | poll => simp [anomalyOf, clockLevelRead]

theorem anomalyOf_eq_spuriousRise_iff (i : Instr) (s : State) :
    anomalyOf i s = some .spuriousRise ↔ clockLevelRead i = some 1#1 ∧ s.block.pending = false := by
  cases i with
  | clkFall a rw => simp [anomalyOf, clockLevelRead]
  | clkRise d => simp only [anomalyOf, clockLevelRead]; split_ifs <;> simp_all
  | resLow => simp [anomalyOf, clockLevelRead]
  | resHigh => simp [anomalyOf, clockLevelRead]
  | poll => simp [anomalyOf, clockLevelRead]

theorem noDoubleFall_of_alternatesAfter {es : List Instr} {last : Option Level} {s : State}
    (hs : ArmedUnlessFell last s) (halt : alternatesAfter last es = true) : noDoubleFall es s = true := by
  refine along_of_alternatesAfter (fun last i s h hfollow => ?_) armedUnlessFell_afterEvent hs halt
  rw [bne_iff_ne, ne_eq, anomalyOf_eq_doubleFall_iff]
  rintro ⟨hfall, hpending⟩
  simp [h (hfollow _ hfall)] at hpending

theorem noSpuriousRise_of_alternatesAfter {es : List Instr} {last : Option Level} {s : State}
    (hs : LatchedUnlessRose last s) (halt : alternatesAfter last es = true) :
    noSpuriousRise es s = true := by
  refine along_of_alternatesAfter (fun last i s h hfollow => ?_) latchedUnlessRose_afterEvent hs halt
  rw [bne_iff_ne, ne_eq, anomalyOf_eq_spuriousRise_iff]
  rintro ⟨hrise, harmed⟩
  simp [h (hfollow _ hrise)] at harmed

/-- Settles O51: under ALT the last clock event and `pending` agree along the run, from either start. -/
theorem alternationExcludesDoubleFall : Obligations.AlternationExcludesDoubleFall := by
  unfold Obligations.AlternationExcludesDoubleFall
  refine ⟨fun es s harmed halt => ?_, fun es s hlatched halt => ⟨?_, ?_⟩⟩
  · exact noDoubleFall_of_alternatesAfter (fun _ => harmed) halt
  · exact noDoubleFall_of_alternatesAfter (fun hne => absurd rfl hne) halt
  · exact noSpuriousRise_of_alternatesAfter (fun _ => hlatched) halt

/-! ### Power-on -/

/-- Settles O14: the listed values hold by definition; the latched level is the asserted one. -/
theorem powerOnStateIsAsListed : Obligations.PowerOnStateIsAsListed := by
  unfold Obligations.PowerOnStateIsAsListed
  refine ⟨fun p a d c => ?_, _, _, _, _, rfl⟩
  exact ⟨(inReset_iff _).mpr rfl, rfl, rfl, rfl, rfl, rfl, rfl, rfl⟩

end Sys2Proof.Machine
end

/-! SUPPORT. Memory proofs (20_memory.md): a fold as a number and bit by bit (R37), a completed cycle's
sample carries the operands of its own two edges (R41), and no address is special (R43). -/

section
namespace Sys2Proof.Machine

/-! ### No address is special -/

section
variable (f : Addr → Addr) (s : State)

@[simp] theorem inReset_renameState : inReset (renameState f s) = inReset s := rfl
@[simp] theorem emitting_renameState : emitting (renameState f s) = emitting s := rfl

/-- No event compares, computes with or branches on an address, so renaming and running commute (R43). -/
theorem afterEvent_renameEvent (i : Instr) :
    afterEvent (renameEvent f i) (renameState f s) = renameState f (afterEvent i s) := by
  cases i with
  | clkFall a rw => simp only [renameEvent, afterEvent_clkFall]; rfl
  | clkRise d =>
    simp only [renameEvent, afterEvent_clkRise, emitting_renameState]
    by_cases he : emitting s = true <;> simp [he, renameState, renameRecord, sampleRecord]
  | resLow => simp only [renameEvent, afterEvent_resLow]; rfl
  | resHigh => simp only [renameEvent, afterEvent_resHigh]; rfl
  | poll =>
    simp only [renameEvent, afterEvent_poll, inReset_renameState]
    by_cases hr : inReset s = true
    · simp [hr, renameState, renameRecord]
    · by_cases hp : s.block.rolloverPending = true <;> simp [hr, hp, renameState, renameRecord]

end

theorem afterEvents_renameEvent (f : Addr → Addr) (es : List Instr) (s : State) :
    afterEvents (es.map (renameEvent f)) (renameState f s) = renameState f (afterEvents es s) := by
  induction es generalizing s with
  | nil => rfl
  | cons i es ih => rw [List.map_cons, afterEvents, afterEvent_renameEvent, ih, afterEvents]

/-- Settles O47: renaming commutes with every event (`afterEvent_renameEvent`), hence with every run. -/
theorem noAddressIsSpecial : Obligations.NoAddressIsSpecial := by
  unfold Obligations.NoAddressIsSpecial
  intro f es s t ht
  obtain rfl := (runEvents_next_iff es s t).mp ht
  rw [runEvents_next_iff, afterEvents_renameEvent]

/-! ### Folds -/

theorem fold_eq_sum (bus : Bus) (ids : List LineId) :
    fold bus ids = ∑ k : Fin ids.length, (line bus ids[k]).toNat * 2 ^ (k : Nat) := by
  induction ids with
  | nil => rfl
  | cons id ids ih =>
    rw [fold, ih, Finset.mul_sum]
    simp [Fin.sum_univ_succ, pow_succ, mul_comm, mul_assoc]

theorem fold_lt_two_pow_length (bus : Bus) (ids : List LineId) : fold bus ids < 2 ^ ids.length := by
  induction ids with
  | nil => exact Nat.one_pos
  | cons id ids ih =>
    have hbit : (line bus id).toNat < 2 := (line bus id).isLt
    rw [fold, List.length_cons, pow_succ]
    omega

/-- Bit `k` of a fold is the level of its line `k`. -/
theorem testBit_fold (bus : Bus) (ids : List LineId) (k : Nat) (hk : k < ids.length) :
    (fold bus ids).testBit k = (line bus ids[k] == 1#1) := by
  induction ids generalizing k with
  | nil => simp at hk
  | cons id ids ih =>
    have hbit : (line bus id).toNat < 2 := (line bus id).isLt
    cases k with
    | zero =>
      rcases level_cases (line bus id) with h | h <;> simp [fold, h, Nat.testBit_zero, Nat.add_mod]
    | succ k =>
      have htail : fold bus (id :: ids) / 2 = fold bus ids := by rw [fold]; omega
      rw [Nat.testBit_succ, htail]
      simpa using ih k (by simpa using hk)

theorem addressLines_eq_map : addressLines = (List.finRange 16).map .addr := by decide

theorem dataLines_eq_map : dataLines = (List.finRange 8).map .data := by decide

/-- Sixteen lines fit in the address: the fold does not overflow (R37). -/
theorem toNat_sampleAddress (bus : Bus) : (sampleAddress bus).toNat = fold bus addressLines :=
  Nat.mod_eq_of_lt (fold_lt_two_pow_length bus addressLines)

/-- Eight lines fit in the data: the fold does not overflow (R37). -/
theorem toNat_sampleData (bus : Bus) : (sampleData bus).toNat = fold bus dataLines :=
  Nat.mod_eq_of_lt (fold_lt_two_pow_length bus dataLines)

theorem getLsbD_sampleAddress (bus : Bus) (k : Fin 16) :
    (sampleAddress bus).getLsbD k = (line bus (.addr k) == 1#1) := by
  have hk : (k : Nat) < addressLines.length := k.isLt
  rw [BitVec.getLsbD, toNat_sampleAddress, testBit_fold bus addressLines k hk]
  simp [addressLines_eq_map]

theorem getLsbD_sampleData (bus : Bus) (k : Fin 8) :
    (sampleData bus).getLsbD k = (line bus (.data k) == 1#1) := by
  have hk : (k : Nat) < dataLines.length := k.isLt
  rw [BitVec.getLsbD, toNat_sampleData, testBit_fold bus dataLines k hk]
  simp [dataLines_eq_map]

/-- Settles O10, by induction on the lines; the fold's bits are its lines (`testBit_fold`), and in the two
worked patterns every line is known. -/
theorem foldIsWeightedSumOfLines : Obligations.FoldIsWeightedSumOfLines := by
  unfold Obligations.FoldIsWeightedSumOfLines
  refine ⟨fun bus ids => ⟨fold_eq_sum bus ids, fold_lt_two_pow_length bus ids⟩,
    fun bus => ⟨addressLines_eq_map, toNat_sampleAddress bus, getLsbD_sampleAddress bus⟩,
    fun bus => ⟨dataLines_eq_map, toNat_sampleData bus, getLsbD_sampleData bus⟩,
    fun bus h0 h => ?_, fun bus h => ?_⟩
  · simp [sampleAddress, addressLines, fold, h0, h]
  · simp only [List.map_cons, List.map_nil, List.cons.injEq] at h
    simp [sampleData, dataLines, fold, h]

/-! ### Faithful samples -/

/-- A falling edge leaves `in_reset` as it found it (R72). -/
theorem inReset_afterEvent_clkFall (a : Addr) (rw : Level) (s : State) :
    inReset (afterEvent (.clkFall a rw) s) = inReset s :=
  inReset_congr (afterEvent_resetLevel _ s) (afterEvent_params _ s)

/-- A cycle both of whose edges are out of reset reports its own operands (R72, R75). -/
theorem trace_afterEvents_cycle {s : State} (hr : inReset s = false) (a : Addr) (rw : Level) (d : Byte) :
    (afterEvents [.clkFall a rw, .clkRise d] s).trace =
      s.trace ++ [.sample ⟨s.block.cycleCount, a, d, directionOf s.params rw⟩] := by
  have hemit : emitting (afterEvent (.clkFall a rw) s) = true := by
    rw [emitting, inReset_afterEvent_clkFall, hr, afterEvent_pending]; rfl
  rw [afterEvents, afterEvents, afterEvents, afterEvent_trace, recordsOf, if_pos hemit]
  simp [afterEvent_clkFall, sampleRecord, hr]

/-- What FAITHFUL-SAMPLE says of a cycle that follows the events `pre`. -/
theorem operands_of_faithfulSample {driven : Nat → Bus} {pre : List Instr} {a : Addr} {rw : Level} {d : Byte}
    (h : FaithfulSample driven (pre ++ [.clkFall a rw, .clkRise d])) :
    a = sampleAddress (driven pre.length) ∧ rw = line (driven pre.length) .rw ∧
      d = sampleData (driven (pre.length + 1)) := by
  obtain ⟨ha, hrw⟩ := h pre.length (.clkFall a rw) (by simp)
  exact ⟨ha, hrw, h (pre.length + 1) (.clkRise d) (by simp)⟩

/-- Settles O54: the sample carries the cycle's operands (`trace_afterEvents_cycle`), which are what was
driven at the two edges. -/
theorem faithfulEventsGiveFaithfulSamples : Obligations.FaithfulEventsGiveFaithfulSamples := by
  unfold Obligations.FaithfulEventsGiveFaithfulSamples
  intro driven pre a rw d s t hfaithful ht hr
  obtain rfl := (runEvents_next_iff pre s t).mp ht
  obtain ⟨rfl, rfl, rfl⟩ := operands_of_faithfulSample hfaithful
  refine ⟨_, runEvents_eq_afterEvents _ s, ?_⟩
  rw [afterEvents_append]
  exact trace_afterEvents_cycle hr _ _ _

end Sys2Proof.Machine
end

/-! SUPPORT. Encoding proofs (30_encoding.md): a row's selection field by field (R53, R54), what the decoder
answers and when it refuses (R56), the round trips of a stimulus word (R66) and of a packed sample (R59), a line
transition as the event it is classified as (R52), and the shorthands of the trace notation (R65). -/

section
namespace Sys2Proof

/-! ### A stimulus word is its fields -/

/-- The fields of R53, with the operand of a `CLK_FALL`, make up the word. -/
theorem append_clkFallFields (w : Stimulus) :
    srcField w ++ lvlField w ++ zeroField w ++ rwField w ++ aField w = w := by
  unfold srcField lvlField zeroField rwField aField
  iterate 4 rw [BitVec.extractLsb'_append_extractLsb'_eq_extractLsb' (by rfl)]
  exact BitVec.extractLsb'_eq_self

/-- The fields of R53, with the operand of a `CLK_RISE` and the bits `w[16:8]` above it, make up the word. -/
theorem append_clkRiseFields (w : Stimulus) :
    srcField w ++ lvlField w ++ zeroField w ++ w.extractLsb' 8 9 ++ dField w = w := by
  unfold srcField lvlField zeroField dField
  iterate 4 rw [BitVec.extractLsb'_append_extractLsb'_eq_extractLsb' (by rfl)]
  exact BitVec.extractLsb'_eq_self

theorem eq_iff_fields (v w : Stimulus) :
    v = w ↔ srcField v = srcField w ∧ lvlField v = lvlField w ∧ zeroField v = zeroField w ∧
      v.extractLsb' 8 9 = w.extractLsb' 8 9 ∧ dField v = dField w := by
  constructor
  · rintro rfl
    exact ⟨rfl, rfl, rfl, rfl, rfl⟩
  · rintro ⟨hsrc, hlvl, hzero, hhigh, hlow⟩
    rw [← append_clkRiseFields v, hsrc, hlvl, hzero, hhigh, hlow, append_clkRiseFields]

/-- All operand bits `w[16:0]` are zero exactly when `w[16:8]` and `w[7:0]` are. -/
theorem operandBits_eq_zero_iff (w : Stimulus) :
    w.extractLsb' 0 17 = 0#17 ↔ w.extractLsb' 8 9 = 0#9 ∧ dField w = 0#8 := by
  have hhigh : (w.extractLsb' 0 17).extractLsb' 8 9 = w.extractLsb' 8 9 := by simp
  have hlow : (w.extractLsb' 0 17).extractLsb' 0 8 = dField w := by simp [dField]
  have hsplit : w.extractLsb' 8 9 ++ dField w = w.extractLsb' 0 17 :=
    BitVec.extractLsb'_append_extractLsb'_eq_extractLsb' rfl
  constructor
  · intro h
    rw [← hhigh, ← hlow, h]
    exact ⟨rfl, rfl⟩
  · rintro ⟨h, h'⟩
    rw [← hsplit, h, h']
    rfl

/-! ### The rows of the opcode table -/

/-- A row selects a word exactly when its mask and pattern agree with the word in every field (R54). -/
theorem selects_iff_fields (r : Row) (w : Stimulus) :
    r.selects w = true ↔
      srcField w &&& srcField r.mask = srcField r.pattern ∧
      lvlField w &&& lvlField r.mask = lvlField r.pattern ∧
      zeroField w &&& zeroField r.mask = zeroField r.pattern ∧
      w.extractLsb' 8 9 &&& r.mask.extractLsb' 8 9 = r.pattern.extractLsb' 8 9 ∧
      dField w &&& dField r.mask = dField r.pattern := by
  rw [Row.selects, beq_iff_eq, eq_iff_fields]
  simp only [srcField, lvlField, zeroField, dField, BitVec.extractLsb'_and]

theorem rowClkFall_selects_iff (w : Stimulus) :
    rowClkFall.selects w = true ↔ srcField w = 0#2 ∧ lvlField w = 0#1 ∧ zeroField w = 0#4 := by
  rw [selects_iff_fields]
  change srcField w &&& BitVec.allOnes 2 = 0#2 ∧ lvlField w &&& BitVec.allOnes 1 = 0#1 ∧
    zeroField w &&& BitVec.allOnes 4 = 0#4 ∧ w.extractLsb' 8 9 &&& 0#9 = 0#9 ∧
    dField w &&& 0#8 = 0#8 ↔ _
  simp only [BitVec.and_allOnes, BitVec.and_zero, and_true]

theorem rowClkRise_selects_iff (w : Stimulus) :
    rowClkRise.selects w = true ↔
      srcField w = 0#2 ∧ lvlField w = 1#1 ∧ zeroField w = 0#4 ∧ w.extractLsb' 8 9 = 0#9 := by
  rw [selects_iff_fields]
  change srcField w &&& BitVec.allOnes 2 = 0#2 ∧ lvlField w &&& BitVec.allOnes 1 = 1#1 ∧
    zeroField w &&& BitVec.allOnes 4 = 0#4 ∧ w.extractLsb' 8 9 &&& BitVec.allOnes 9 = 0#9 ∧
    dField w &&& 0#8 = 0#8 ↔ _
  simp only [BitVec.and_allOnes, BitVec.and_zero, and_true]

/-- A row of format N fixes every bit: it selects its pattern alone. -/
theorem selects_iff_eq_pattern {r : Row} (hmask : r.mask = BitVec.allOnes 24) (w : Stimulus) :
    r.selects w = true ↔ w = r.pattern := by
  rw [Row.selects, hmask, BitVec.and_allOnes, beq_iff_eq]

/-- A row of format N, whose operand bits are all zero, by the fields of R53. -/
theorem selects_iff_of_formatN {r : Row} (hmask : r.mask = BitVec.allOnes 24)
    (hzero : zeroField r.pattern = 0#4) (hoperand : r.pattern.extractLsb' 0 17 = 0#17) (w : Stimulus) :
    r.selects w = true ↔
      srcField w = srcField r.pattern ∧ lvlField w = lvlField r.pattern ∧ zeroField w = 0#4 ∧
        w.extractLsb' 0 17 = 0#17 := by
  obtain ⟨hhigh, hlow⟩ := (operandBits_eq_zero_iff r.pattern).mp hoperand
  rw [selects_iff_eq_pattern hmask, eq_iff_fields, hzero, hhigh, hlow, operandBits_eq_zero_iff]

theorem rowResLow_selects_iff (w : Stimulus) :
    rowResLow.selects w = true ↔
      srcField w = 1#2 ∧ lvlField w = 0#1 ∧ zeroField w = 0#4 ∧ w.extractLsb' 0 17 = 0#17 :=
  selects_iff_of_formatN rfl rfl rfl w

theorem rowResHigh_selects_iff (w : Stimulus) :
    rowResHigh.selects w = true ↔
      srcField w = 1#2 ∧ lvlField w = 1#1 ∧ zeroField w = 0#4 ∧ w.extractLsb' 0 17 = 0#17 :=
  selects_iff_of_formatN rfl rfl rfl w

theorem rowPoll_selects_iff (w : Stimulus) :
    rowPoll.selects w = true ↔
      srcField w = 2#2 ∧ lvlField w = 0#1 ∧ zeroField w = 0#4 ∧ w.extractLsb' 0 17 = 0#17 :=
  selects_iff_of_formatN rfl rfl rfl w

/-- Two different rows have patterns that differ at a bit both masks fix. -/
theorem eq_of_pattern_agree :
    ∀ r ∈ opcodeTable, ∀ r' ∈ opcodeTable, r.pattern &&& r'.mask = r'.pattern &&& r.mask → r = r' := by
  decide

/-- Settles O9: on the bits both masks fix, the word shows both patterns (`eq_of_pattern_agree`). -/
theorem noWordSelectsTwoRows : Obligations.NoWordSelectsTwoRows := by
  unfold Obligations.NoWordSelectsTwoRows
  intro w r r' hr hr' hw hw'
  have hpattern : w &&& r.mask = r.pattern := beq_iff_eq.mp hw
  have hpattern' : w &&& r'.mask = r'.pattern := beq_iff_eq.mp hw'
  refine eq_of_pattern_agree r hr r' hr' ?_
  rw [← hpattern, ← hpattern', BitVec.and_assoc, BitVec.and_assoc, BitVec.and_comm r.mask]

/-! ### What the decoder answers -/

/-- The event of the row that selects the word, or refused when none does (R54, R56). -/
theorem decode_cases (w : Stimulus) :
    (rowClkFall.selects w = true ∧ decode w = .event (.clkFall (aField w) (rwField w))) ∨
    (rowClkRise.selects w = true ∧ decode w = .event (.clkRise (dField w))) ∨
    (rowResLow.selects w = true ∧ decode w = .event .resLow) ∨
    (rowResHigh.selects w = true ∧ decode w = .event .resHigh) ∨
    (rowPoll.selects w = true ∧ decode w = .event .poll) ∨
    ((∀ r ∈ opcodeTable, r.selects w = false) ∧ decode w = .reserved (reservedReason w)) := by
  unfold decode
  split_ifs <;> simp_all [opcodeTable]

theorem decode_reserved_iff (w : Stimulus) :
    (∃ why, decode w = .reserved why) ↔ ∀ r ∈ opcodeTable, r.selects w = false := by
  rcases decode_cases w with ⟨hs, hd⟩ | ⟨hs, hd⟩ | ⟨hs, hd⟩ | ⟨hs, hd⟩ | ⟨hs, hd⟩ | ⟨hnone, hd⟩
  case inr.inr.inr.inr.inr => exact iff_of_true ⟨_, hd⟩ hnone
  all_goals simp [hd, opcodeTable, hs]

/-- Settles O6: `decode_encode`, the row an event's word selects and the operands read back from it. -/
theorem decodeOfEncodeIsIdentity : Obligations.DecodeOfEncodeIsIdentity := by
  unfold Obligations.DecodeOfEncodeIsIdentity
  exact decode_encode

theorem encode_clkFall_of_selects {w : Stimulus} (h : rowClkFall.selects w = true) :
    encode (.clkFall (aField w) (rwField w)) = w := by
  obtain ⟨hsrc, hlvl, hzero⟩ := (rowClkFall_selects_iff w).mp h
  calc encode (.clkFall (aField w) (rwField w))
    _ = 0#2 ++ 0#1 ++ 0#4 ++ rwField w ++ aField w := rfl
    _ = srcField w ++ lvlField w ++ zeroField w ++ rwField w ++ aField w := by rw [hsrc, hlvl, hzero]
    _ = w := append_clkFallFields w

theorem encode_clkRise_of_selects {w : Stimulus} (h : rowClkRise.selects w = true) :
    encode (.clkRise (dField w)) = w := by
  obtain ⟨hsrc, hlvl, hzero, hhigh⟩ := (rowClkRise_selects_iff w).mp h
  calc encode (.clkRise (dField w))
    _ = 0#2 ++ 1#1 ++ 0#4 ++ 0#9 ++ dField w := rfl
    _ = srcField w ++ lvlField w ++ zeroField w ++ w.extractLsb' 8 9 ++ dField w := by
      rw [hsrc, hlvl, hzero, hhigh]
    _ = w := append_clkRiseFields w

/-- Settles O7: the row that selected the word fixes the bits its event does not carry. -/
theorem encodeOfDecodeIsIdentity : Obligations.EncodeOfDecodeIsIdentity := by
  unfold Obligations.EncodeOfDecodeIsIdentity
  intro w i hi
  rcases decode_cases w with ⟨hs, hd⟩ | ⟨hs, hd⟩ | ⟨hs, hd⟩ | ⟨hs, hd⟩ | ⟨hs, hd⟩ | ⟨-, hd⟩ <;>
    cases hi.symm.trans hd
  case inl => exact encode_clkFall_of_selects hs
  case inr.inl => exact encode_clkRise_of_selects hs
  all_goals exact ((selects_iff_eq_pattern rfl w).mp hs).symm

theorem source_cases (src : BitVec 2) : src = 0#2 ∨ src = 1#2 ∨ src = 2#2 ∨ src = 3#2 := by
  revert src; decide

/-- Settles O8: a word is reserved when no row selects it (`decode_reserved_iff`); by source and level, at
most one row is left, and what it asks of the other bits is what the list asks them to miss. -/
theorem reservedExactlyInListedCases : Obligations.ReservedExactlyInListedCases := by
  unfold Obligations.ReservedExactlyInListedCases
  intro w
  rw [decode_reserved_iff]
  simp only [opcodeTable, List.forall_mem_cons, List.not_mem_nil, ← Bool.not_eq_true,
    rowClkFall_selects_iff, rowClkRise_selects_iff, rowResLow_selects_iff, rowResHigh_selects_iff,
    rowPoll_selects_iff]
  rcases source_cases (srcField w) with hs | hs | hs | hs <;>
    rcases Machine.level_cases (lvlField w) with hl | hl <;>
    simp [hs, hl, imp_iff_not_or]

/-- Settles O5: each word is evaluated. -/
theorem specWordsDecodeAsWritten : Obligations.SpecWordsDecodeAsWritten := by
  unfold Obligations.SpecWordsDecodeAsWritten
  decide

end Sys2Proof

namespace Sys2Proof.Machine

/-! ### What a step does with its input -/

/-- Settles O2: a reserved word at the head of the queue has no event to run. -/
theorem stepRefusesReservedWord : Obligations.StepRefusesReservedWord := by
  unfold Obligations.StepRefusesReservedWord
  intro s w rest why hin hd
  simp only [step, nextInput, hin, runInput, runWord, hd]

/-- A transition of `CLK` at the head of the queue: the step is the event it is classified as (R52, R71). -/
theorem step_clockEdge {s : State} {bus : Bus} {rest : List Input} (hin : s.inputs = .clockEdge bus :: rest) :
    step s = exec (clockEvent bus) (s.setInputs rest) := by
  simp [step, nextInput, hin, runInput, clockHandler_eq, exec_eq_afterEvent]

/-- A transition of `RES` at the head of the queue: the step is the event it is classified as (R52, R68). -/
theorem step_resetEdge {s : State} {bus : Bus} {rest : List Input} (hin : s.inputs = .resetEdge bus :: rest) :
    step s = exec (resetEvent bus) (s.setInputs rest) := by
  simp [step, nextInput, hin, runInput, resetHandler_eq, exec_eq_afterEvent]

theorem clockEvent_of_low {bus : Bus} (h : bus.clk = 0#1) :
    clockEvent bus = .clkFall (sampleAddress bus) bus.rw := by
  simp [clockEvent, line, h]

theorem clockEvent_of_high {bus : Bus} (h : bus.clk = 1#1) : clockEvent bus = .clkRise (sampleData bus) := by
  simp [clockEvent, line, h]

theorem resetEvent_of_low {bus : Bus} (h : bus.res = 0#1) : resetEvent bus = .resLow := by
  simp [resetEvent, line, h]

theorem resetEvent_of_high {bus : Bus} (h : bus.res = 1#1) : resetEvent bus = .resHigh := by
  simp [resetEvent, line, h]

/-- Settles O11: `step_clockEdge` and `step_resetEdge`, and the classification by the level read. -/
theorem lineTransitionRunsClassifiedEvent : Obligations.LineTransitionRunsClassifiedEvent := by
  unfold Obligations.LineTransitionRunsClassifiedEvent
  refine fun s bus rest => ⟨fun hin => ⟨step_clockEdge hin, fun hlow => ?_, fun hhigh => ?_⟩,
    fun hin => ⟨step_resetEdge hin, fun hlow => ?_, fun hhigh => ?_⟩⟩
  · exact clockEvent_of_low hlow ▸ step_clockEdge hin
  · exact clockEvent_of_high hhigh ▸ step_clockEdge hin
  · exact resetEvent_of_low hlow ▸ step_resetEdge hin
  · exact resetEvent_of_high hhigh ▸ step_resetEdge hin

/-! ### The packed sample -/

@[simp] theorem directionOfBit_directionBit (dir : Direction) : directionOfBit (directionBit dir) = dir := by
  cases dir <;> rfl

@[simp] theorem directionBit_directionOfBit (b : BitVec 1) : directionBit (directionOfBit b) = b := by
  rcases level_cases b with rfl | rfl <;> rfl

theorem unpack_pack (b : BusCycleSample) : BusCycleSample.unpack b.pack = b := by
  obtain ⟨index, address, data, dir⟩ := b
  simp only [BusCycleSample.unpack, BusCycleSample.pack, BusCycleSample.mk.injEq]
  refine ⟨?_, ?_, ?_, ?_⟩
  · iterate 2 rw [BitVec.extractLsb'_append_eq_of_le (by decide)]
    exact BitVec.extractLsb'_append_eq_left
  · iterate 2 rw [BitVec.extractLsb'_append_eq_of_le (by decide)]
    exact BitVec.extractLsb'_append_eq_right
  · rw [BitVec.extractLsb'_append_eq_of_le (by decide)]
    exact BitVec.extractLsb'_append_eq_right
  · rw [BitVec.extractLsb'_append_eq_right, directionOfBit_directionBit]

theorem pack_unpack (p : Packed) : (BusCycleSample.unpack p).pack = p := by
  simp only [BusCycleSample.pack, BusCycleSample.unpack, directionBit_directionOfBit]
  iterate 3 rw [BitVec.extractLsb'_append_extractLsb'_eq_extractLsb' (by rfl)]
  exact BitVec.extractLsb'_eq_self

/-- Settles O12: each field is read back from where it was put, and the four fields make up the 41 bits. -/
theorem packedSampleRoundTrip : Obligations.PackedSampleRoundTrip := by
  unfold Obligations.PackedSampleRoundTrip
  exact ⟨unpack_pack, pack_unpack⟩

/-! ### The shorthands of the trace notation -/

@[simp] theorem resetLevelRead_resEvent (l : Level) : resetLevelRead (resEvent l) = some l := by
  rcases level_cases l with rfl | rfl <;> rfl

theorem events_cycle (p : Params) (c : BusCycle) :
    TraceLine.events p (.cycle c.a.toNat c.rw.toNat c.d.toNat) = some c.events := by
  have hwf : (TraceLine.cycle c.a.toNat c.rw.toNat c.d.toNat).wf = true := by
    simp [TraceLine.wf, c.a.isLt, c.rw.isLt, c.d.isLt]
  simp [TraceLine.events, hwf, BusCycle.events]

theorem wf_cycle_eq_false {a rw d : Nat} (h : 2 ^ 16 ≤ a ∨ 2 ≤ rw ∨ 2 ^ 8 ≤ d) :
    (TraceLine.cycle a rw d).wf = false := by
  simp only [TraceLine.wf, Bool.and_eq_false_iff, decide_eq_false_iff_not]
  omega

/-- Settles O13: each line is expanded by its own arm, and an operand out of range is not well-formed. -/
theorem traceShorthandsExpand : Obligations.TraceShorthandsExpand := by
  unfold Obligations.TraceShorthandsExpand
  refine fun p => ⟨⟨resEvent p.resetAssertLevel, rfl, ?_⟩, ⟨resEvent (~~~p.resetAssertLevel), rfl, ?_⟩,
    events_cycle p, fun a rw d h => ?_⟩
  · simp [assertsReset]
  · simp [releasesReset]
  · simp [TraceLine.events, wf_cycle_eq_false h]

end Sys2Proof.Machine
end

/-! SUPPORT. Reset Monitor proofs (40_reset_monitor.md): a reset event is `RES_EDGE` of the level it reads
(R69, R70), `RES_EDGE` writes the level latch and the counter only and is idempotent (R67, R68), and the
frame of the reset events and of a poll. -/

section
namespace Sys2Proof.Machine

/-! ### A reset event is the level it reads -/

/-- Both reset events run `RES_EDGE`, at the level their handler reads (R69, R70). -/
theorem afterEvent_of_resetLevelRead {i : Instr} {l : Level} (h : resetLevelRead i = some l) (s : State) :
    afterEvent i s = resEdge l s := by
  cases i with
  | resLow => cases h; rfl
  | resHigh => cases h; rfl
  | clkFall a rw => cases h
  | clkRise d => cases h
  | poll => cases h

theorem exec_of_resetLevelRead {i : Instr} {l : Level} (h : resetLevelRead i = some l) (s : State) :
    exec i s = .next (resEdge l s) := by
  rw [exec_eq_afterEvent, afterEvent_of_resetLevelRead h]

/-! ### The frame of `RES_EDGE` -/

/-- `RES_EDGE(L)` writes the level latch and the counter and nothing else (R67, R68). -/
theorem resEdge_frame (l : Level) (s : State) :
    resEdge l s =
      { s with
        block :=
          { s.block with
            resetLevel := (resEdge l s).block.resetLevel
            cycleCount := (resEdge l s).block.cycleCount } } := by
  rw [resEdge_eq]

@[simp] theorem resEdge_resetLevel (l : Level) (s : State) : (resEdge l s).block.resetLevel = l := by
  rw [resEdge_eq]

/-- The reset handler reads `RES` alone (R67). -/
theorem resetHandler_congr {bus bus' : Bus} (h : bus.res = bus'.res) (s : State) :
    resetHandler bus s = resetHandler bus' s :=
  congrArg (resEdge · s) h

/-! ### The statements -/

/-- Settles O17: a reset event is `RES_EDGE` of its level, and `resEdge_eq` is that as one update. -/
theorem resetEventsLatchLevelAndClear : Obligations.ResetEventsLatchLevelAndClear := by
  unfold Obligations.ResetEventsLatchLevelAndClear
  intro s
  constructor
  · simpa only [resEdge_eq, eq_comm (a := 0#1)] using exec_of_resetLevelRead (i := .resLow) rfl s
  · simpa only [resEdge_eq, eq_comm (a := 1#1)] using exec_of_resetLevelRead (i := .resHigh) rfl s

/-- Settles O22: each field is read off `resEdge_eq`, and the handler reads `RES` alone. -/
theorem resetMonitorIsLevelLatch : Obligations.ResetMonitorIsLevelLatch := by
  unfold Obligations.ResetMonitorIsLevelLatch
  refine ⟨fun s i l hl => ⟨resEdge l s, exec_of_resetLevelRead hl s, ?_⟩, fun s bus bus' hres => ⟨?_, ?_⟩⟩
  · simp [resEdge_eq]
  · exact resEdge_resetLevel bus.res s
  · exact resetHandler_congr hres s

/-- Settles O23: the second report latches the level already latched, and clears a counter that the first
has cleared, or neither clears it. -/
theorem resetEdgeIsIdempotent : Obligations.ResetEdgeIsIdempotent := by
  unfold Obligations.ResetEdgeIsIdempotent
  intro l s
  by_cases h : l = s.params.resetAssertLevel
  · simp [resEdge_eq, h]
  · simp [resEdge_eq, h]

/-- Settles O26: `resEdge_frame` at the level of either reset event, and a poll as the one update of
`afterEvent_poll`. -/
theorem resetAndPollFrame : Obligations.ResetAndPollFrame := by
  unfold Obligations.ResetAndPollFrame
  refine fun s t => ⟨?_, fun hpoll => ?_⟩
  · rintro (hlow | hhigh)
    · obtain rfl := (exec_next_iff .resLow s t).mp hlow
      exact resEdge_frame 0#1 s
    · obtain rfl := (exec_next_iff .resHigh s t).mp hhigh
      exact resEdge_frame 1#1 s
  · obtain rfl := (exec_next_iff .poll s t).mp hpoll
    rw [afterEvent_poll]

end Sys2Proof.Machine
end

/-! SUPPORT. Bus Sampler proofs (41_bus_sampler.md): the three things a rising edge can do (R73), a reset
event as the update it is (R68), what events other than clock events leave alone, and the cycles of the Edge
State Machine: whole (R75), discarded (R74), spurious (R76), doubled (R78), or with a reset inside (R77, R81). -/

section
namespace Sys2Proof.Machine

/-! ### The three things a rising edge can do -/

/-- The no-op case (R76). -/
theorem afterEvent_clkRise_of_armed {s : State} (hp : s.block.pending = false) (d : Byte) :
    afterEvent (.clkRise d) s = s.setClockLevel 1#1 := by
  simp [afterEvent, risingProcedure, hp]

/-- The discard case (R74). -/
theorem afterEvent_clkRise_of_inReset {s : State} (hp : s.block.pending = true) (hr : inReset s = true)
    (d : Byte) : afterEvent (.clkRise d) s = (s.setClockLevel 1#1).setPending false := by
  have hr' : inReset (s.setClockLevel 1#1) = true := hr
  simp [afterEvent, risingProcedure, hp, hr']

/-- The emitting case (R75). -/
theorem afterEvent_clkRise_of_emitting {s : State} (hp : s.block.pending = true) (hr : inReset s = false)
    (d : Byte) : afterEvent (.clkRise d) s = emitSample d (s.setClockLevel 1#1) := by
  have hr' : inReset (s.setClockLevel 1#1) = false := hr
  simp [afterEvent, risingProcedure, hp, hr']

theorem trace_afterEvent_clkRise_of_emitting {s : State} (hp : s.block.pending = true)
    (hr : inReset s = false) (d : Byte) :
    (afterEvent (.clkRise d) s).trace =
      s.trace ++ [.sample ⟨s.block.cycleCount, s.block.address, d, s.block.direction⟩] := by
  rw [afterEvent_clkRise_of_emitting hp hr, emitSample_eq]
  rfl

/-! ### A reset event as the update it is -/

theorem assertsReset_iff {p : Params} {i : Instr} :
    assertsReset p i = true ↔ resetLevelRead i = some p.resetAssertLevel := by
  simp [assertsReset]

theorem releasesReset_iff {p : Params} {i : Instr} :
    releasesReset p i = true ↔ resetLevelRead i = some (~~~p.resetAssertLevel) := by
  simp [releasesReset]

theorem level_eq_or_eq_not (l l' : Level) : l = l' ∨ l = ~~~l' := by revert l l'; decide

theorem not_level_ne (l : Level) : ~~~l ≠ l := by revert l; decide

/-- The report of the asserted level latches it and clears the counter (R68). -/
theorem afterEvent_of_assertsReset {i : Instr} {s : State} (h : assertsReset s.params i = true) :
    afterEvent i s = (s.setResetLevel s.params.resetAssertLevel).setCycleCount 0x0000#16 := by
  rw [afterEvent_of_resetLevelRead (assertsReset_iff.mp h), resEdge, if_pos rfl, resetCounter]

/-- The report of the other level latches it and does nothing else (R68). -/
theorem afterEvent_of_releasesReset {i : Instr} {s : State} (h : releasesReset s.params i = true) :
    afterEvent i s = s.setResetLevel (~~~s.params.resetAssertLevel) := by
  rw [afterEvent_of_resetLevelRead (releasesReset_iff.mp h), resEdge, if_neg (not_level_ne _)]

/-- `in_reset` follows the level a reset event reads, and no other event moves it (R14). -/
theorem inReset_afterEvent (i : Instr) (s : State) :
    inReset (afterEvent i s) =
      ((resetLevelRead i).map (· == s.params.resetAssertLevel)).getD (inReset s) := by
  rw [inReset, afterEvent_resetLevel, afterEvent_params]
  cases resetLevelRead i with
  | none => rfl
  | some l => rfl

theorem inReset_afterEvent_of_assertsReset {i : Instr} {s : State} (h : assertsReset s.params i = true) :
    inReset (afterEvent i s) = true := by
  simp [inReset_afterEvent, assertsReset_iff.mp h]

theorem inReset_afterEvent_of_releasesReset {i : Instr} {s : State} (h : releasesReset s.params i = true) :
    inReset (afterEvent i s) = false := by
  simp [inReset_afterEvent, releasesReset_iff.mp h]

/-- Only an event that reads the other level takes the block out of reset (R14). -/
theorem inReset_afterEvent_of_not_releasesReset {i : Instr} {s : State} (hr : inReset s = true)
    (h : releasesReset s.params i = false) : inReset (afterEvent i s) = true := by
  rw [inReset_afterEvent]
  cases hl : resetLevelRead i with
  | none => exact hr
  | some l =>
    rcases level_eq_or_eq_not l s.params.resetAssertLevel with rfl | rfl
    · simp
    · simp [releasesReset, hl] at h

/-- Out of reset, the block stays out until an event reads the asserted level (R14). -/
theorem inReset_afterEvent_of_not_assertsReset {i : Instr} {s : State} (hr : inReset s = false)
    (h : assertsReset s.params i = false) : inReset (afterEvent i s) = false := by
  rw [Bool.eq_false_iff] at hr ⊢
  exact fun hr' => hr (inReset_of_inReset_afterEvent h hr')

/-! ### Events other than clock events -/

theorem isRise_eq_false_of_not_isClock {i : Instr} (h : isClock i = false) : isRise i = false := by
  cases i with
  | clkRise d => cases h
  | clkFall a rw => rfl
  | resLow => rfl
  | resHigh => rfl
  | poll => rfl

theorem clockLevelRead_of_not_isClock {i : Instr} (h : isClock i = false) : clockLevelRead i = none := by
  cases i with
  | clkFall a rw => cases h
  | clkRise d => cases h
  | resLow => rfl
  | resHigh => rfl
  | poll => rfl

/-- Both states agree on whether a cycle is pending, and on the address and direction latched for it. -/
def SameCycle (s t : State) : Prop :=
  t.block.pending = s.block.pending ∧ t.block.address = s.block.address ∧
    t.block.direction = s.block.direction

/-- Only clock events touch a pending cycle (R15, R17, R18). -/
theorem sameCycle_afterEvent {i : Instr} (h : isClock i = false) (s : State) :
    SameCycle s (afterEvent i s) := by
  cases i with
  | clkFall a rw => cases h
  | clkRise d => cases h
  | resLow => rw [afterEvent_resLow]; exact ⟨rfl, rfl, rfl⟩
  | resHigh => rw [afterEvent_resHigh]; exact ⟨rfl, rfl, rfl⟩
  | poll => rw [afterEvent_poll]; exact ⟨rfl, rfl, rfl⟩

theorem sameCycle_afterEvents {es : List Instr} (h : ∀ i ∈ es, isClock i = false) (s : State) :
    SameCycle s (afterEvents es s) := by
  induction es generalizing s with
  | nil => exact ⟨rfl, rfl, rfl⟩
  | cons i es ih =>
    obtain ⟨hi, hes⟩ := List.forall_mem_cons.mp h
    obtain ⟨hp, ha, hd⟩ := sameCycle_afterEvent hi s
    obtain ⟨hp', ha', hd'⟩ := ih hes (afterEvent i s)
    exact ⟨hp'.trans hp, ha'.trans ha, hd'.trans hd⟩

/-! ### CLK_FALL and CLK_RISE: the next state and the frame -/

/-- The wrap of R83 is the wrap of sixteen bits. -/
theorem wrap_eq_add_one (n : Count) : (if n = 0xFFFF#16 then 0#16 else n + 1#16) = n + 1#16 := by
  by_cases h : n = 0xFFFF#16
  · rw [if_pos h, h]; rfl
  · rw [if_neg h]

/-- Settles O15: `afterEvent_clkFall`, with the direction's two names written out. -/
theorem clkFallLatchesAndPends : Obligations.ClkFallLatchesAndPends := by
  unfold Obligations.ClkFallLatchesAndPends
  intro a rw s
  rw [exec_eq_afterEvent, afterEvent_clkFall]
  simp only [directionOf, writeRequested, beq_iff_eq]

/-- Settles O16: the three cases of a rising edge, one lemma each. -/
theorem clkRiseNoOpDiscardOrEmit : Obligations.ClkRiseNoOpDiscardOrEmit := by
  unfold Obligations.ClkRiseNoOpDiscardOrEmit
  intro d s
  rw [exec_eq_afterEvent]
  congr 1
  cases hp : s.block.pending with
  | false => exact afterEvent_clkRise_of_armed hp d
  | true =>
    rw [if_neg (by decide)]
    by_cases hr : inReset s = true
    · rw [if_pos ((inReset_iff s).mp hr)]
      exact afterEvent_clkRise_of_inReset hp hr d
    · rw [if_neg (hr ∘ (inReset_iff s).mpr), wrap_eq_add_one]
      exact (afterEvent_clkRise_of_emitting hp (Bool.eq_false_iff.mpr hr) d).trans (emitSample_eq d _)

/-- Settles O24, read off `afterEvent_clkFall`. -/
theorem clkFallFrame : Obligations.ClkFallFrame := by
  unfold Obligations.ClkFallFrame
  intro a rw s t ht
  obtain rfl := (exec_next_iff _ s t).mp ht
  rw [afterEvent_clkFall]
  exact ⟨rfl, rfl, rfl, rfl, rfl, rfl, rfl, rfl⟩

/-- Settles O25, read off `afterEvent_clkRise`: all it writes but `pending` and `clock_level` waits for
`emitting`. -/
theorem clkRiseFrame : Obligations.ClkRiseFrame := by
  unfold Obligations.ClkRiseFrame
  intro d s t ht
  obtain rfl := (exec_next_iff _ s t).mp ht
  rw [afterEvent_clkRise]
  exact ⟨rfl, rfl, rfl, fun he => by simp [he], rfl, rfl, rfl⟩

/-! ### Armed and Latched -/

theorem phase_congr {s t : State} (h : t.block.pending = s.block.pending) : phase t = phase s := by
  rw [phase, h, phase]

theorem phase_of_pending {s : State} (h : s.block.pending = true) : phase s = .latched := by
  rw [phase, if_pos h]

theorem phase_afterEvent_clkFall (a : Addr) (rw : Level) (s : State) :
    phase (afterEvent (.clkFall a rw) s) = .latched :=
  phase_of_pending (afterEvent_pending _ s)

theorem phase_afterEvent_clkRise (d : Byte) (s : State) : phase (afterEvent (.clkRise d) s) = .armed := by
  rw [phase, afterEvent_pending]
  rfl

theorem phase_afterEvent_of_not_isClock {i : Instr} (h : isClock i = false) (s : State) :
    phase (afterEvent i s) = phase s := by
  obtain ⟨hp, _, _⟩ := sameCycle_afterEvent h s
  exact phase_congr hp

/-- Settles O33: a clock event gives the phase whatever it was, the others keep it; only the emitting rise
adds to the trace. -/
theorem edgeStateMachineTable : Obligations.EdgeStateMachineTable := by
  unfold Obligations.EdgeStateMachineTable
  intro i s t ht
  obtain rfl := (exec_next_iff i s t).mp ht
  cases i with
  | clkFall a rw =>
    have hcell : phase (afterEvent (.clkFall a rw) s) = .latched ∧
        (afterEvent (.clkFall a rw) s).block.address = a ∧ (afterEvent (.clkFall a rw) s).trace = s.trace :=
      ⟨phase_afterEvent_clkFall a rw s, by rw [afterEvent_clkFall], by rw [afterEvent_clkFall]⟩
    cases phase s with
    | armed => exact hcell
    | latched => exact hcell
  | clkRise d =>
    have hphase := phase_afterEvent_clkRise d s
    cases hp : s.block.pending with
    | false =>
      rw [show phase s = .armed by simp [phase, hp]]
      exact ⟨hphase, by rw [afterEvent_clkRise_of_armed hp]; rfl⟩
    | true =>
      rw [phase_of_pending hp]
      refine ⟨hphase, ?_⟩
      cases hr : inReset s with
      | true => rw [afterEvent_clkRise_of_inReset hp hr]; rfl
      | false => exact trace_afterEvent_clkRise_of_emitting hp hr d
  | resLow =>
    rw [← phase_afterEvent_of_not_isClock (i := .resLow) rfl s]
    cases phase (afterEvent .resLow s) <;> rfl
  | resHigh =>
    rw [← phase_afterEvent_of_not_isClock (i := .resHigh) rfl s]
    cases phase (afterEvent .resHigh s) <;> rfl
  | poll =>
    rw [← phase_afterEvent_of_not_isClock (i := .poll) rfl s]
    cases phase (afterEvent .poll s) <;> rfl

/-- An event that emits no sample adds none to the samples of the trace. -/
theorem samplesOf_trace_afterEvent {i : Instr} {s : State} (h : emits i s = false) :
    samplesOf (afterEvent i s).trace = samplesOf s.trace := by
  have hnone : samplesOf (recordsOf i s) = [] := by
    rw [← List.length_eq_zero_iff, length_samplesOf_recordsOf, h]
    rfl
  rw [afterEvent_trace, samplesOf_append, hnone, List.append_nil]

theorem pending_afterEvent_of_not_isRise {i : Instr} {s : State} (hp : s.block.pending = true)
    (h : isRise i = false) : (afterEvent i s).block.pending = true := by
  rw [afterEvent_pending]
  cases i with
  | clkRise d => cases h
  | clkFall a rw => rfl
  | resLow => exact hp
  | resHigh => exact hp
  | poll => exact hp

/-- Without a rising edge the cycle stays pending and no sample appears (R82). -/
theorem latched_afterEvents_of_not_isRise {es : List Instr} {s : State} (hp : s.block.pending = true)
    (h : ∀ i ∈ es, isRise i = false) :
    (afterEvents es s).block.pending = true ∧ samplesOf (afterEvents es s).trace = samplesOf s.trace := by
  induction es generalizing s with
  | nil => exact ⟨hp, rfl⟩
  | cons i es ih =>
    obtain ⟨hi, hes⟩ := List.forall_mem_cons.mp h
    obtain ⟨hpending, hsamples⟩ := ih (pending_afterEvent_of_not_isRise hp hi) hes
    have hemits : emits i s = false := by rw [emits, hi, Bool.false_and]
    exact ⟨hpending, hsamples.trans (samplesOf_trace_afterEvent hemits)⟩

/-- Only clock events read `pending`. -/
theorem afterEvent_setPending {i : Instr} (h : isClock i = false) (v : Bool) (s : State) :
    afterEvent i (s.setPending v) = (afterEvent i s).setPending v := by
  cases i with
  | clkFall a rw => cases h
  | clkRise d => cases h
  | resLow => rw [afterEvent_resLow, afterEvent_resLow]; rfl
  | resHigh => rw [afterEvent_resHigh, afterEvent_resHigh]; rfl
  | poll => rw [afterEvent_poll, afterEvent_poll]; rfl

/-- Settles O45, by induction on the events; the events other than clock events do not read `pending`. -/
theorem onlyRiseLeavesLatched : Obligations.OnlyRiseLeavesLatched := by
  unfold Obligations.OnlyRiseLeavesLatched
  refine ⟨fun es s hp hes => ?_, fun i s t hi ht => ?_⟩
  · obtain ⟨hpending, hsamples⟩ := latched_afterEvents_of_not_isRise hp hes
    exact ⟨_, runEvents_eq_afterEvents es s, phase_of_pending hpending, hsamples⟩
  · obtain rfl := (exec_next_iff i s t).mp ht
    rw [exec_eq_afterEvent, afterEvent_setPending hi]

/-! ### One whole cycle after another -/

/-- The samples of full cycles out of reset, the first of index `n` (R75). -/
def samplesFrom (p : Params) (n : Count) (cs : List BusCycle) : List OutputRecord :=
  cs.mapIdx fun k c => .sample ⟨n + BitVec.ofNat 16 k, c.a, c.d, directionOf p c.rw⟩

theorem samplesFrom_cons (p : Params) (n : Count) (c : BusCycle) (cs : List BusCycle) :
    samplesFrom p n (c :: cs) =
      .sample ⟨n, c.a, c.d, directionOf p c.rw⟩ :: samplesFrom p (n + 1#16) cs := by
  have hindex (k : Nat) : n + 1#16 + BitVec.ofNat 16 k = n + BitVec.ofNat 16 (k + 1) := by
    rw [BitVec.ofNat_add, BitVec.add_comm (BitVec.ofNat 16 k), BitVec.add_assoc]
  simp only [samplesFrom, List.mapIdx_cons, BitVec.add_zero, hindex]

/-- A full cycle out of reset stays out of reset and moves the count by one (R75). -/
theorem cycle_frame {s : State} (hr : inReset s = false) (c : BusCycle) :
    (afterEvents c.events s).params = s.params ∧ inReset (afterEvents c.events s) = false ∧
      (afterEvents c.events s).block.cycleCount = s.block.cycleCount + 1#16 := by
  have hp : (afterEvent (.clkFall c.a c.rw) s).block.pending = true := afterEvent_pending _ s
  have hr' := (inReset_afterEvent_clkFall c.a c.rw s).trans hr
  rw [BusCycle.events, afterEvents, afterEvents, afterEvents, afterEvent_clkRise_of_emitting hp hr',
    emitSample_eq, afterEvent_clkFall]
  exact ⟨rfl, hr, rfl⟩

theorem trace_afterEvents_cycleEvents (cs : List BusCycle) {s : State} (hr : inReset s = false) :
    (afterEvents (cycleEvents cs) s).trace =
      s.trace ++ samplesFrom s.params s.block.cycleCount cs := by
  induction cs generalizing s with
  | nil => exact (List.append_nil _).symm
  | cons c cs ih =>
    obtain ⟨hparams, hreset, hcount⟩ := cycle_frame hr c
    have htrace : (afterEvents c.events s).trace = _ := trace_afterEvents_cycle hr c.a c.rw c.d
    rw [cycleEvents, List.flatMap_cons, afterEvents_append, ← cycleEvents, ih hreset, hparams, hcount,
      htrace, samplesFrom_cons, List.append_assoc, List.singleton_append]

/-- Settles O40: the emitting case of the rising edge, and an induction on the cycles. -/
theorem oneSamplePerPairIndexedByCount : Obligations.OneSamplePerPairIndexedByCount := by
  unfold Obligations.OneSamplePerPairIndexedByCount
  refine ⟨fun d s hp hr => ⟨_, exec_eq_afterEvent _ s, ?_, ?_, afterEvent_pending _ s⟩,
    fun cs s hr => ⟨_, runEvents_eq_afterEvents _ s, trace_afterEvents_cycleEvents cs hr⟩⟩
  · exact trace_afterEvent_clkRise_of_emitting hp hr d
  · rw [afterEvent_clkRise_of_emitting hp hr, emitSample_eq, advance_eq]
    rfl

/-! ### Spurious, doubled and discarded edges -/

/-- Settles O21: the spurious rise writes `clock_level` only, which `observable` puts to zero, and runs keep
agreement under `observable`. -/
theorem spuriousRiseIsUnobservable : Obligations.SpuriousRiseIsUnobservable := by
  unfold Obligations.SpuriousRiseIsUnobservable
  intro d s hp
  have hrise := afterEvent_clkRise_of_armed hp d
  refine ⟨⟨1#1, by rw [exec_eq_afterEvent, hrise]; rfl⟩, fun es t t' ht ht' => ?_⟩
  obtain rfl := (runEvents_next_iff _ s t).mp ht
  obtain rfl := (runEvents_next_iff _ s t').mp ht'
  have hobs : observable (afterEvent (.clkRise d) s) = observable s := by rw [hrise]; rfl
  exact trace_eq_of_observable_eq (observable_afterEvents_congr es hobs)

/-- Settles O50: both edges find the same reset, and the second writes every field the first wrote, or, in
reset, neither writes the direction. -/
theorem secondFallOverwritesFirst : Obligations.SecondFallOverwritesFirst := by
  unfold Obligations.SecondFallOverwritesFirst
  intro a a' rw rw' s
  simp only [runEvents_eq_afterEvents, afterEvents]
  rw [afterEvent_clkFall a' rw' (afterEvent _ s), inReset_afterEvent_clkFall, afterEvent_clkFall,
    afterEvent_clkFall]
  cases hr : inReset s with
  | true => rfl
  | false => rfl

/-- Settles O20: the discard case of the rising edge; in the run, the asserted level between the edges leaves
the cycle pending, and the counter is what the assertion made it. -/
theorem riseInResetDiscardsPendingCycle : Obligations.RiseInResetDiscardsPendingCycle := by
  unfold Obligations.RiseInResetDiscardsPendingCycle
  refine ⟨fun d s hp hr => ⟨1#1, ?_⟩, fun a rw d i s hi => ?_⟩
  · rw [exec_eq_afterEvent, afterEvent_clkRise_of_inReset hp hr]
    rfl
  · have hassert : assertsReset (afterEvent (.clkFall a rw) s).params i = true := by
      rwa [afterEvent_params]
    refine ⟨_, _, runEvents_eq_afterEvents _ s, exec_eq_afterEvent _ _, ?_⟩
    simp only [afterEvents]
    have hr := inReset_afterEvent_of_assertsReset hassert
    have hu := afterEvent_of_assertsReset hassert
    have hp : (afterEvent i (afterEvent (.clkFall a rw) s)).block.pending = true := by
      rw [hu]; exact afterEvent_pending _ s
    rw [afterEvent_clkRise_of_inReset hp hr]
    refine ⟨?_, rfl, rfl⟩
    rw [hu, afterEvent_clkFall]
    rfl

/-! ### A reset between the edges -/

/-- Settles O48: the falling edge in reset keeps the direction, the release writes the level latch only, and
the rising edge, now out of reset, emits. -/
theorem fallInResetKeepsStaleDirection : Obligations.FallInResetKeepsStaleDirection := by
  unfold Obligations.FallInResetKeepsStaleDirection
  intro a rw d i s hr hi
  have hrelease : releasesReset (afterEvent (.clkFall a rw) s).params i = true := by
    rwa [afterEvent_params]
  have hu := afterEvent_of_releasesReset hrelease
  have hp : (afterEvent i (afterEvent (.clkFall a rw) s)).block.pending = true := by
    rw [hu]; exact afterEvent_pending _ s
  refine ⟨_, runEvents_eq_afterEvents _ s, ?_⟩
  simp only [afterEvents]
  rw [trace_afterEvent_clkRise_of_emitting hp (inReset_afterEvent_of_releasesReset hrelease), hu,
    afterEvent_clkFall, if_pos hr]
  rfl

/-- A reset asserted and released again leaves the other level latched and the counter at 0 (R68). -/
theorem afterEvent_resetPulse {i j : Instr} {s : State} (hi : assertsReset s.params i = true)
    (hj : releasesReset s.params j = true) :
    afterEvent j (afterEvent i s) =
      (s.setResetLevel (~~~s.params.resetAssertLevel)).setCycleCount 0x0000#16 := by
  rw [afterEvent_of_releasesReset (by rwa [afterEvent_params]), afterEvent_of_assertsReset hi]
  rfl

/-- Settles O49: the pulse clears the counter and touches nothing of the cycle, and the rising edge, out of
reset again, emits what was latched before and advances. -/
theorem resetPulseInsideCycleStillEmits : Obligations.ResetPulseInsideCycleStillEmits := by
  unfold Obligations.ResetPulseInsideCycleStillEmits
  intro d i j s hp hi hj
  have hu := afterEvent_resetPulse hi hj
  have hr : inReset (afterEvent j (afterEvent i s)) = false :=
    inReset_afterEvent_of_releasesReset (by rwa [afterEvent_params])
  have hp' : (afterEvent j (afterEvent i s)).block.pending = true := by rw [hu]; exact hp
  refine ⟨_, runEvents_eq_afterEvents _ s, ?_, ?_⟩
  · simp only [afterEvents]
    rw [trace_afterEvent_clkRise_of_emitting hp' hr, hu]
    rfl
  · simp only [afterEvents]
    rw [afterEvent_clkRise_of_emitting hp' hr, emitSample_eq, hu]
    rfl

/-- What RELEASED-ARMED asks of one event and of the rest. -/
theorem releasedArmed_cons (i : Instr) (is : List Instr) (s : State) :
    releasedArmed (i :: is) s =
      (!(inReset s && releasesReset s.params i && s.block.pending) && releasedArmed is (afterEvent i s)) := by
  simp only [releasedArmed, along, exec_eq_afterEvent]

/-- Under RELEASED-ARMED, a reset that a pending cycle has met is not released before the next clock event
(R77). -/
theorem inReset_afterEvents_of_releasedArmed {mid : List Instr} {s : State} (hp : s.block.pending = true)
    (hr : inReset s = true) (hmid : ∀ i ∈ mid, isClock i = false) (h : releasedArmed mid s = true) :
    inReset (afterEvents mid s) = true := by
  induction mid generalizing s with
  | nil => exact hr
  | cons i mid ih =>
    obtain ⟨hi, hmid⟩ := List.forall_mem_cons.mp hmid
    rw [releasedArmed_cons, Bool.and_eq_true] at h
    obtain ⟨hhead, htail⟩ := h
    have hrel : releasesReset s.params i = false := by simpa [hr, hp] using hhead
    obtain ⟨hp', _, _⟩ := sameCycle_afterEvent hi s
    exact ih (hp'.trans hp) (inReset_afterEvent_of_not_releasesReset hr hrel) hmid htail

/-- Settles O52: had the falling edge met a reset, RELEASED-ARMED would have kept it until the rising edge; so
the direction was derived, and nothing between the edges touches what was latched. -/
theorem releasedArmedGivesFaithfulDirection : Obligations.ReleasedArmedGivesFaithfulDirection := by
  unfold Obligations.ReleasedArmedGivesFaithfulDirection
  intro a rw mid d s t hmid hrel ht hr
  obtain rfl := (runEvents_next_iff _ s t).mp ht
  rw [releasedArmed_cons, Bool.and_eq_true] at hrel
  obtain ⟨_, hrel⟩ := hrel
  have hfell : (afterEvent (.clkFall a rw) s).block.pending = true := afterEvent_pending _ s
  obtain ⟨hp, ha, hd⟩ := sameCycle_afterEvents hmid (afterEvent (.clkFall a rw) s)
  have hout : inReset s = false := by
    rw [Bool.eq_false_iff]
    intro hin
    have hkept := inReset_afterEvents_of_releasedArmed hfell
      ((inReset_afterEvent_clkFall a rw s).trans hin) hmid hrel
    exact Bool.false_ne_true (hr.symm.trans hkept)
  refine ⟨_, exec_eq_afterEvent _ _, ?_⟩
  rw [afterEvents] at hr ⊢
  rw [trace_afterEvent_clkRise_of_emitting (hp.trans hfell) hr, ha, hd, afterEvent_clkFall, hout]
  rfl

/-- What NO-PULSE asks of one event and of the rest. -/
theorem noPulseAfter_cons (owed : Bool) (i : Instr) (is : List Instr) (s : State) :
    noPulseAfter owed (i :: is) s =
      (!(owed && releasesReset s.params i) &&
        noPulseAfter (if !inReset s && assertsReset s.params i then true else owed && !isRise i) is
          (afterEvent i s)) := by
  rw [noPulseAfter, exec_eq_afterEvent]

/-- A reset that has not met a rising edge yet lasts as long as none happens (R81). -/
theorem inReset_afterEvents_of_noPulseAfter {mid : List Instr} {s : State} (hr : inReset s = true)
    (hmid : ∀ i ∈ mid, isClock i = false) (h : noPulseAfter true mid s = true) :
    inReset (afterEvents mid s) = true := by
  induction mid generalizing s with
  | nil => exact hr
  | cons i mid ih =>
    obtain ⟨hi, hmid⟩ := List.forall_mem_cons.mp hmid
    simp only [noPulseAfter_cons, hr, isRise_eq_false_of_not_isClock hi, Bool.true_and, Bool.and_eq_true,
      Bool.not_eq_true'] at h
    obtain ⟨hrel, htail⟩ := h
    exact ih (inReset_afterEvent_of_not_releasesReset hr hrel) hmid (by simpa using htail)

/-- An assertion out of reset, with no clock event beside it, lasts to the end (R81). -/
theorem inReset_afterEvents_of_noPulse {mid : List Instr} {s : State} (hr : inReset s = false)
    (hmid : ∀ i ∈ mid, isClock i = false) (hassert : ∃ i ∈ mid, assertsReset s.params i = true)
    (h : noPulse mid s = true) : inReset (afterEvents mid s) = true := by
  induction mid generalizing s with
  | nil => simp at hassert
  | cons i mid ih =>
    obtain ⟨hi, hmid⟩ := List.forall_mem_cons.mp hmid
    rw [noPulse, noPulseAfter_cons] at h
    rw [afterEvents]
    cases ha : assertsReset s.params i with
    | true =>
      have hrest : noPulseAfter true mid (afterEvent i s) = true := by simpa [hr, ha] using h
      exact inReset_afterEvents_of_noPulseAfter (inReset_afterEvent_of_assertsReset ha) hmid hrest
    | false =>
      have hrest : noPulse mid (afterEvent i s) = true := by simpa [noPulse, ha] using h
      have hlater : ∃ j ∈ mid, assertsReset (afterEvent i s).params j = true := by
        simpa [ha] using hassert
      exact ih (inReset_afterEvent_of_not_assertsReset hr ha) hmid hlater hrest

/-- Settles O53: under NO-PULSE the rising edge finds the reset asserted inside the cycle, and discards it. -/
theorem noPulseMakesAssertionDiscard : Obligations.NoPulseMakesAssertionDiscard := by
  unfold Obligations.NoPulseMakesAssertionDiscard
  intro mid d s t hp hr hmid hassert hpulse ht
  obtain rfl := (runEvents_next_iff mid s t).mp ht
  obtain ⟨hp', _, _⟩ := sameCycle_afterEvents hmid s
  have hin := inReset_afterEvents_of_noPulse hr hmid hassert hpulse
  refine ⟨_, exec_eq_afterEvent _ _, ?_⟩
  rw [afterEvent_clkRise_of_inReset (hp'.trans hp) hin]
  exact ⟨rfl, rfl⟩

end Sys2Proof.Machine
end

/-! SUPPORT. Cycle Counter proofs (42_cycle_counter.md): what a poll out of reset does with a signalled
rollover (R92), what the events before it leave of it (R84), and the count and the rollover bit after any
number of whole cycles (R83, R86). -/

section
namespace Sys2Proof.Machine

/-! ### A signalled rollover until it is reported -/

theorem along_cons (P : Instr → State → Bool) (i : Instr) (is : List Instr) (s : State) :
    along P (i :: is) s = (P i s && along P is (afterEvent i s)) := by
  rw [along, exec_eq_afterEvent]

/-- The event is no poll out of reset, the only thing that takes a signalled rollover away (R92). -/
def sparesRollover (i : Instr) (s : State) : Bool := !(i == .poll && !inReset s)

theorem rolloverPending_afterEvent_of_sparesRollover {i : Instr} {s : State}
    (hset : s.block.rolloverPending = true) (h : sparesRollover i s = true) :
    (afterEvent i s).block.rolloverPending = true := by
  rw [afterEvent_rolloverPending, hset]
  by_cases hpoll : i = .poll
  · simpa [sparesRollover, hpoll] using h
  · rw [if_neg hpoll, Bool.true_or]

theorem rolloverNotice_notMem_recordsOf_of_sparesRollover {i : Instr} {s : State}
    (h : sparesRollover i s = true) : OutputRecord.rolloverNotice ∉ recordsOf i s := by
  cases i with
  | clkFall a rw => exact List.not_mem_nil
  | clkRise d => by_cases he : emitting s = true <;> simp [recordsOf, he]
  | resLow => exact List.not_mem_nil
  | resHigh => exact List.not_mem_nil
  | poll =>
    have hr : inReset s = true := by simpa [sparesRollover] using h
    simp [recordsOf, hr]

/-- Along a run without a poll out of reset a signalled rollover stays signalled and unreported (R84). -/
theorem rollover_afterEvents_of_sparesRollover {es : List Instr} {s : State}
    (hset : s.block.rolloverPending = true) (h : along sparesRollover es s = true) :
    (afterEvents es s).block.rolloverPending = true ∧
      ∃ out, (afterEvents es s).trace = s.trace ++ out ∧ OutputRecord.rolloverNotice ∉ out := by
  induction es generalizing s with
  | nil => exact ⟨hset, [], (List.append_nil _).symm, List.not_mem_nil⟩
  | cons i es ih =>
    rw [along_cons, Bool.and_eq_true] at h
    obtain ⟨hi, hes⟩ := h
    obtain ⟨hkept, out, htrace, hout⟩ := ih (rolloverPending_afterEvent_of_sparesRollover hset hi) hes
    refine ⟨hkept, recordsOf i s ++ out, ?_, ?_⟩
    · rw [afterEvents, htrace, afterEvent_trace, List.append_assoc]
    · exact List.not_mem_append (rolloverNotice_notMem_recordsOf_of_sparesRollover hi) hout

/-- Out of reset a poll reports a signalled rollover, and the poll after it finds nothing to report (R92). -/
theorem afterEvents_poll_poll {s : State} (hr : inReset s = false) (hset : s.block.rolloverPending = true) :
    afterEvents [.poll, .poll] s = (emit .rolloverNotice s).setRolloverPending false := by
  have hreport : pollPass s = (emit .rolloverNotice s).setRolloverPending false := by
    simp [pollPass, reportRollover, hr, hset]
  have hr' : inReset ((emit .rolloverNotice s).setRolloverPending false) = false := hr
  rw [afterEvents, afterEvents, afterEvents, afterEvent, afterEvent, hreport, pollPass, hr']
  rfl

/-- Settles O44: no event but a poll out of reset clears or reports the bit, and that poll does both. -/
theorem rolloverIsReportedExactlyOnce : Obligations.RolloverIsReportedExactlyOnce := by
  unfold Obligations.RolloverIsReportedExactlyOnce
  intro es s hset hes
  obtain ⟨hkept, out, htrace, hout⟩ := rollover_afterEvents_of_sparesRollover hset hes
  refine ⟨_, runEvents_eq_afterEvents es s, hkept, ?_, fun hr => ⟨_, runEvents_eq_afterEvents _ _, ?_⟩⟩
  · rwa [htrace, List.drop_left]
  · rw [afterEvents_poll_poll hr hkept]
    rfl

/-! ### Many whole cycles -/

/-- The count after whole cycles out of reset, one up for each, and what the cycles leave (R83). -/
theorem cycles_frame (cs : List BusCycle) {s : State} (hr : inReset s = false) :
    (afterEvents (cycleEvents cs) s).params = s.params ∧
      inReset (afterEvents (cycleEvents cs) s) = false ∧
      (afterEvents (cycleEvents cs) s).block.cycleCount =
        s.block.cycleCount + BitVec.ofNat 16 cs.length := by
  induction cs generalizing s with
  | nil => exact ⟨rfl, hr, (BitVec.add_zero _).symm⟩
  | cons c cs ih =>
    obtain ⟨hparams, hreset, hcount⟩ := cycle_frame hr c
    obtain ⟨hparams', hreset', hcount'⟩ := ih hreset
    rw [cycleEvents, List.flatMap_cons, afterEvents_append, ← cycleEvents]
    refine ⟨hparams'.trans hparams, hreset', ?_⟩
    rw [hcount', hcount, List.length_cons, BitVec.ofNat_add, BitVec.add_assoc,
      BitVec.add_comm (BitVec.ofNat 16 cs.length)]

/-- One cycle signals a rollover exactly when it completes at the largest count (R83). -/
theorem rolloverPending_afterEvents_cycle {s : State} (hr : inReset s = false) (c : BusCycle) :
    (afterEvents c.events s).block.rolloverPending =
      (s.block.rolloverPending || s.block.cycleCount == Config.cmax) := by
  have hp : (afterEvent (.clkFall c.a c.rw) s).block.pending = true := afterEvent_pending _ s
  have hr' := (inReset_afterEvent_clkFall c.a c.rw s).trans hr
  rw [BusCycle.events, afterEvents, afterEvents, afterEvents, afterEvent_clkRise_of_emitting hp hr',
    emitSample_eq, afterEvent_clkFall]
  rfl

/-- Whole cycles signal a rollover exactly when they carry the count over `CMAX` (R83, R86). -/
theorem rolloverPending_afterEvents_cycleEvents (cs : List BusCycle) {s : State} (hr : inReset s = false) :
    (afterEvents (cycleEvents cs) s).block.rolloverPending =
      (s.block.rolloverPending || decide (Config.cperiod ≤ s.block.cycleCount.toNat + cs.length)) := by
  induction cs generalizing s with
  | nil =>
    have hlt : ¬ Config.cperiod ≤ s.block.cycleCount.toNat := Nat.not_le.mpr s.block.cycleCount.isLt
    simp [cycleEvents, afterEvents, hlt]
  | cons c cs ih =>
    obtain ⟨_, hreset, hcount⟩ := cycle_frame hr c
    rw [cycleEvents, List.flatMap_cons, afterEvents_append, ← cycleEvents, ih hreset,
      rolloverPending_afterEvents_cycle hr, hcount, toNat_count_succ, List.length_cons, Bool.or_assoc]
    by_cases hmax : s.block.cycleCount = Config.cmax
    · have hover : Config.cperiod ≤ s.block.cycleCount.toNat + (cs.length + 1) := by
        rw [hmax, Config.cperiod, Config.cmax, BitVec.toNat_ofNat]
        omega
      rw [beq_iff_eq.mpr hmax, decide_eq_true hover, Bool.true_or]
    · rw [if_neg hmax, beq_eq_false_iff_ne.mpr hmax, Bool.false_or, Nat.add_assoc, Nat.add_comm 1]

/-- Whole cycles end Armed: the last rising edge consumes the last falling edge (R73). -/
theorem pending_afterEvents_cycleEvents {cs : List BusCycle} (hne : cs ≠ []) (s : State) :
    (afterEvents (cycleEvents cs) s).block.pending = false := by
  obtain rfl | ⟨init, c, rfl⟩ := cs.eq_nil_or_concat'
  · exact absurd rfl hne
  · rw [cycleEvents, List.flatMap_append, afterEvents_append, List.flatMap_singleton]
    exact afterEvent_pending (.clkRise c.d) _

theorem samplesOf_samplesFrom (p : Params) (n : Count) (cs : List BusCycle) :
    samplesOf (samplesFrom p n cs) =
      cs.mapIdx fun k c => ⟨n + BitVec.ofNat 16 k, c.a, c.d, directionOf p c.rw⟩ := by
  simp [samplesOf, samplesFrom, List.mapIdx_eq_zipIdx_map, List.filterMap_map]

/-- The samples of a trace after whole cycles out of reset, one more for each (R75). -/
theorem samplesOf_afterEvents_cycleEvents (cs : List BusCycle) {s : State} (hr : inReset s = false) :
    samplesOf (afterEvents (cycleEvents cs) s).trace =
      samplesOf s.trace ++ cs.mapIdx fun k c =>
        ⟨s.block.cycleCount + BitVec.ofNat 16 k, c.a, c.d, directionOf s.params c.rw⟩ := by
  rw [trace_afterEvents_cycleEvents cs hr, samplesOf_append, samplesOf_samplesFrom]

/-- The last of whole cycles out of reset carries the index one below the count they end at (R75). -/
theorem getLast?_cycleIndex_afterEvents_cycleEvents {cs : List BusCycle} (hne : cs ≠ []) {s : State}
    (hr : inReset s = false) :
    (samplesOf (afterEvents (cycleEvents cs) s).trace).getLast?.map (fun b => b.cycleIndex) =
      some (s.block.cycleCount + BitVec.ofNat 16 (cs.length - 1)) := by
  rw [samplesOf_afterEvents_cycleEvents cs hr, List.getLast?_append_of_ne_nil _ (by simpa using hne),
    List.getLast?_mapIdx, List.getLast?_eq_some_getLast hne]
  rfl

/-- With a rollover signalled out of reset, two polls and a cycle add the notice, once, and the cycle's
sample (R75, R92). -/
theorem trace_afterEvents_poll_poll_cycle {s : State} (hr : inReset s = false)
    (hset : s.block.rolloverPending = true) (c : BusCycle) :
    (afterEvents (.poll :: .poll :: c.events) s).trace =
      s.trace ++
        [.rolloverNotice, .sample ⟨s.block.cycleCount, c.a, c.d, directionOf s.params c.rw⟩] := by
  have hsplit : (.poll :: .poll :: c.events) = [.poll, .poll] ++ c.events := rfl
  have hr' : inReset ((emit .rolloverNotice s).setRolloverPending false) = false := hr
  rw [hsplit, afterEvents_append, afterEvents_poll_poll hr hset, BusCycle.events,
    trace_afterEvents_cycle hr']
  simp

/-- Settles O42: to a count of sixteen bits 65536 cycles are none (`cycles_frame`), and they carry it over
`CMAX`, from whatever count; the two polls and the next cycle start from there. -/
theorem counterWrapsAfter65536Cycles : Obligations.CounterWrapsAfter65536Cycles := by
  unfold Obligations.CounterWrapsAfter65536Cycles
  intro cs s hlen hr hcount _
  have hne : cs ≠ [] := List.ne_nil_of_length_pos (by omega)
  obtain ⟨hparams, hreset, hcount'⟩ := cycles_frame cs hr
  have hzero : (afterEvents (cycleEvents cs) s).block.cycleCount = 0#16 := by
    rw [hcount', hcount, hlen]
    rfl
  have hover : Config.cperiod ≤ s.block.cycleCount.toNat + 65536 := Nat.le_add_left _ _
  have hset : (afterEvents (cycleEvents cs) s).block.rolloverPending = true := by
    rw [rolloverPending_afterEvents_cycleEvents cs hr, hlen, decide_eq_true hover, Bool.or_true]
  refine ⟨_, runEvents_eq_afterEvents _ s, hzero, hset, pending_afterEvents_cycleEvents hne s, ?_, ?_,
    fun c => ⟨_, runEvents_eq_afterEvents _ _, ?_⟩⟩
  · rw [samplesOf_afterEvents_cycleEvents cs hr, List.length_append, List.length_mapIdx, hlen]
  · rw [getLast?_cycleIndex_afterEvents_cycleEvents hne hr, hcount, hlen]
    rfl
  · rw [trace_afterEvents_poll_poll_cycle hreset hset, hzero, hparams]

/-! ### The two operations -/

/-- Settles O19: `advance()` adds one in sixteen bits and sets the bit at `CMAX` (`advance_eq`); clearing is
one field update. -/
theorem counterOperationsClosedForm : Obligations.CounterOperationsClosedForm := by
  unfold Obligations.CounterOperationsClosedForm
  intro s
  have hmax : s.block.cycleCount = Config.cmax ↔ s.block.cycleCount.toNat = 65535 :=
    BitVec.toNat_inj.symm
  rw [advance_eq]
  refine ⟨BitVec.toNat_add _ _, ?_, rfl, rfl⟩
  rw [Bool.or_eq_true, beq_iff_eq, hmax]

end Sys2Proof.Machine
end

/-! SUPPORT. Idle Supervisor proofs (43_idle_supervisor.md): what a poll does in reset (R91) and out of it
(R92), what a whole run emits while reset is held, the split pass against the atomic one (R94), and the
report of a signalled rollover under fair polls (R95). -/

section
namespace Sys2Proof.Machine

/-! ### One poll -/

/-- The reset branch (R91). -/
theorem pollPass_of_inReset {s : State} (hr : inReset s = true) : pollPass s = emit .statusReset s :=
  if_pos hr

theorem pollPass_of_not_inReset {s : State} (hr : inReset s = false) : pollPass s = reportRollover s :=
  if_neg (Bool.eq_false_iff.mp hr)

/-- The rollover branch, with a rollover to report (R92). -/
theorem reportRollover_of_pending {s : State} (hset : s.block.rolloverPending = true) :
    reportRollover s = (emit .rolloverNotice s).setRolloverPending false :=
  if_pos hset

/-- Settles O18: the three cases of a poll are the three branches of the statement. -/
theorem pollReportsResetElseRollover : Obligations.PollReportsResetElseRollover := by
  unfold Obligations.PollReportsResetElseRollover
  intro s
  rw [exec_eq_afterEvent, afterEvent]
  simp only [← inReset_iff]
  rcases pollPass_cases s with ⟨hr, h⟩ | ⟨hr, hset, h⟩ | ⟨hr, hclear, h⟩
  · rw [h, if_pos hr]; rfl
  · rw [h, if_neg (by simp [hr]), if_pos hset]; rfl
  · rw [h, if_neg (by simp [hr]), if_neg (by simp [hclear])]

/-! ### While reset is held -/

/-- In reset a poll gives one `StatusReset` and no other event gives anything (R74, R91). -/
theorem recordsOf_of_inReset {s : State} (hr : inReset s = true) (i : Instr) :
    recordsOf i s = List.replicate ([i].count .poll) .statusReset := by
  cases i with
  | clkFall a rw => rfl
  | clkRise d => simp [recordsOf, emitting, hr]
  | resLow => rfl
  | resHigh => rfl
  | poll => simp [recordsOf, hr]

/-- A run without a release, begun in reset, stays in reset, keeps the counter at 0 and emits one
`StatusReset` per poll (R33, R91). -/
theorem heldReset_afterEvents {es : List Instr} {s : State} (hr : inReset s = true)
    (hzero : CounterZeroInReset s) (hes : ∀ i ∈ es, releasesReset s.params i = false) :
    inReset (afterEvents es s) = true ∧ CounterZeroInReset (afterEvents es s) ∧
      (afterEvents es s).trace = s.trace ++ List.replicate (es.count .poll) .statusReset := by
  induction es generalizing s with
  | nil => exact ⟨hr, hzero, (List.append_nil _).symm⟩
  | cons i es ih =>
    obtain ⟨hi, hes⟩ := List.forall_mem_cons.mp hes
    obtain ⟨hreset, hzero', htrace⟩ := ih (inReset_afterEvent_of_not_releasesReset hr hi)
      (counterZeroInReset_afterEvent i hzero) (by rwa [afterEvent_params])
    refine ⟨hreset, hzero', ?_⟩
    calc (afterEvents es (afterEvent i s)).trace
      _ = s.trace ++ (List.replicate ([i].count .poll) .statusReset ++
            List.replicate (es.count .poll) .statusReset) := by
          rw [htrace, afterEvent_trace, recordsOf_of_inReset hr, List.append_assoc]
      _ = s.trace ++ List.replicate ((i :: es).count .poll) .statusReset := by
          rw [List.replicate_append_replicate, ← List.count_append, List.singleton_append]

/-- Settles O43: the reset branch of one poll, and `heldReset_afterEvents` of a run. -/
theorem heldResetGivesOneStatusPerPoll : Obligations.HeldResetGivesOneStatusPerPoll := by
  unfold Obligations.HeldResetGivesOneStatusPerPoll
  refine ⟨fun s hr => ?_, fun es s hr hzero hes => ?_⟩
  · rw [exec_eq_afterEvent, afterEvent, pollPass_of_inReset hr]
    rfl
  · obtain ⟨hreset, hzero', htrace⟩ := heldReset_afterEvents hr hzero hes
    exact ⟨_, runEvents_eq_afterEvents es s, hreset, hzero' hreset, htrace⟩

/-! ### Fair polls -/

theorem along_sparesRollover_of_no_poll {es : List Instr} (h : ∀ i ∈ es, i ≠ .poll) (s : State) :
    along sparesRollover es s = true := by
  induction es generalizing s with
  | nil => rfl
  | cons i es ih =>
    obtain ⟨hi, hes⟩ := List.forall_mem_cons.mp h
    rw [along_cons, ih hes, Bool.and_true]
    simp [sparesRollover, hi]

/-- A poll out of reset reports a signalled rollover (R92). -/
theorem trace_afterEvent_poll_of_pending {s : State} (hr : inReset s = false)
    (hset : s.block.rolloverPending = true) :
    (afterEvent .poll s).trace = s.trace ++ [.rolloverNotice] := by
  rw [afterEvent_trace, (recordsOf_poll_eq_rolloverNotice_iff s).mpr ⟨hr, hset⟩]

/-- Settles O55: up to the first poll nothing takes the signalled rollover away, and that poll, out of
reset, reports it. -/
theorem fairPollsReportRollover : Obligations.FairPollsReportRollover := by
  unfold Obligations.FairPollsReportRollover
  intro e s hfair hset hreleased
  have hpolls : ∃ m, e m = .poll := (hfair 0).imp fun _ h => h.2
  obtain ⟨m, hpoll, hfirst⟩ : ∃ m, e m = .poll ∧ ∀ k < m, e k ≠ .poll :=
    ⟨Nat.find hpolls, Nat.find_spec hpolls, fun _ => Nat.find_min hpolls⟩
  have hbefore : ∀ i ∈ (List.range m).map e, i ≠ .poll := by simpa using hfirst
  obtain ⟨hkept, out, htrace, -⟩ :=
    rollover_afterEvents_of_sparesRollover hset (along_sparesRollover_of_no_poll hbefore s)
  have hr : inReset (afterEvents ((List.range m).map e) s) = false :=
    hreleased m _ (runEvents_eq_afterEvents _ s)
  have hreported : (afterEvents ((List.range (m + 1)).map e) s).trace =
      s.trace ++ (out ++ [.rolloverNotice]) := by
    rw [List.range_succ, List.map_append, List.map_singleton, hpoll, afterEvents_append, afterEvents,
      afterEvents, trace_afterEvent_poll_of_pending hr hkept, htrace, List.append_assoc]
  refine ⟨m + 1, _, runEvents_eq_afterEvents _ s, ?_⟩
  rw [hreported, List.drop_left]
  exact List.mem_append_right out (List.mem_singleton_self _)

/-! ### The split pass -/

theorem State.setPoll_eq_self {s : State} {v : PollPhase} (h : s.poll = v) : s.setPoll v = s := by
  subst h; rfl

/-- `POLL_A` in reset: the report, and the pass has ended (R94). -/
theorem pollFirstHalf_of_inReset {s : State} (hr : inReset s = true) :
    pollFirstHalf s = (emit .statusReset s).setPoll .idle :=
  if_pos hr

/-- `POLL_A` out of reset: `POLL_B` is due (R94). -/
theorem pollFirstHalf_of_not_inReset {s : State} (hr : inReset s = false) :
    pollFirstHalf s = s.setPoll .midPass :=
  if_neg (Bool.eq_false_iff.mp hr)

theorem pollSecondHalf_of_idle {s : State} (h : s.poll = .idle) : pollSecondHalf s = s := by
  rw [pollSecondHalf, h]

/-- `POLL_B` with a pass begun: the rollover branch, in reset or not (R94). -/
theorem pollSecondHalf_of_midPass {s : State} (h : s.poll = .midPass) :
    pollSecondHalf s = (reportRollover s).setPoll .idle := by
  rw [pollSecondHalf, h]

/-- The two halves with nothing between are the atomic pass (R94). -/
theorem pollSecondHalf_pollFirstHalf {s : State} (hidle : s.poll = .idle) :
    pollSecondHalf (pollFirstHalf s) = pollPass s := by
  cases hr : inReset s with
  | true =>
    rw [pollFirstHalf_of_inReset hr, pollSecondHalf_of_idle rfl, pollPass_of_inReset hr]
    exact State.setPoll_eq_self hidle
  | false =>
    rw [pollFirstHalf_of_not_inReset hr, pollSecondHalf_of_midPass rfl, pollPass_of_not_inReset hr,
      reportRollover_eq, reportRollover_eq]
    exact State.setPoll_eq_self (s := { s with block := _, trace := _ }) hidle

/-- `POLL_A` does not read the queue. -/
theorem pollFirstHalf_setInputs (s : State) (rest : List Input) :
    pollFirstHalf (s.setInputs rest) = (pollFirstHalf s).setInputs rest := by
  simp only [pollFirstHalf, apply_ite (State.setInputs · rest)]
  rfl

/-- `POLL_A` at the head of the queue (R94). -/
theorem step_pollA {s : State} {rest : List Input} (hin : s.inputs = .pollA :: rest) :
    step s = .next (pollFirstHalf (s.setInputs rest)) := by
  simp [step, nextInput, hin, runInput]

/-- `POLL_B` at the head of the queue (R94). -/
theorem step_pollB {s : State} {rest : List Input} (hin : s.inputs = .pollB :: rest) :
    step s = .next (pollSecondHalf (s.setInputs rest)) := by
  simp [step, nextInput, hin, runInput]

/-- Settles O57: two steps take the two halves off the queue, and together they are the atomic pass. -/
theorem splitPollRefinesPoll : Obligations.SplitPollRefinesPoll := by
  unfold Obligations.SplitPollRefinesPoll
  intro s rest hidle hin
  have hA : step s = .next ((pollFirstHalf s).setInputs (.pollB :: rest)) := by
    rw [step_pollA hin, pollFirstHalf_setInputs]
  have hB : step ((pollFirstHalf s).setInputs (.pollB :: rest)) =
      .next (pollSecondHalf (pollFirstHalf (s.setInputs rest))) := by
    rw [step_pollB rfl, pollFirstHalf_setInputs]
    rfl
  have hpoll : exec .poll (s.setInputs rest) = .next (pollSecondHalf (pollFirstHalf (s.setInputs rest))) := by
    rw [pollSecondHalf_pollFirstHalf (s := s.setInputs rest) hidle]
    exact exec_eq_afterEvent .poll _
  exact (run_core_succ hA 1).trans ((run_core_succ hB 0).trans hpoll.symm)

/-! ### An assertion between the halves -/

/-- A transition of `RES` to the asserted level is classified as an assertion (R52). -/
theorem assertsReset_resetEvent {p : Params} {bus : Bus} (h : bus.res = p.resetAssertLevel) :
    assertsReset p (resetEvent bus) = true :=
  assertsReset_iff.mpr ((resetLevelRead_resEvent bus.res).trans (congrArg some h))

/-- A transition of `RES` to the asserted level at the head of the queue: the level is latched and the
counter cleared (R68). -/
theorem step_resetEdge_of_asserted {s : State} {bus : Bus} {rest : List Input}
    (hin : s.inputs = .resetEdge bus :: rest) (hres : bus.res = s.params.resetAssertLevel) :
    step s = .next (((s.setInputs rest).setResetLevel s.params.resetAssertLevel).setCycleCount 0#16) := by
  rw [step_resetEdge hin, exec_eq_afterEvent,
    afterEvent_of_assertsReset (s := s.setInputs rest) (assertsReset_resetEvent hres)]
  rfl

/-- `POLL_A` out of reset at the head of the queue: the pass has begun and nothing is reported (R94). -/
theorem step_pollA_of_not_inReset {s : State} {rest : List Input} (hin : s.inputs = .pollA :: rest)
    (hr : inReset s = false) : step s = .next ((s.setInputs rest).setPoll .midPass) := by
  rw [step_pollA hin, pollFirstHalf_of_not_inReset (s := s.setInputs rest) hr]

/-- `POLL_B` at the head of the queue, with a pass begun and a rollover signalled: the report, in reset or
not (R94). -/
theorem step_pollB_of_pending {s : State} {rest : List Input} (hin : s.inputs = .pollB :: rest)
    (hmid : s.poll = .midPass) (hset : s.block.rolloverPending = true) :
    step s =
      .next (((emit .rolloverNotice (s.setInputs rest)).setRolloverPending false).setPoll .idle) := by
  rw [step_pollB hin, pollSecondHalf_of_midPass (s := s.setInputs rest) hmid,
    reportRollover_of_pending (s := s.setInputs rest) hset]

/-- Settles O58: the atomic poll takes the reset branch; the split one has looked at reset before the
assertion, which leaves the rollover bit for `POLL_B`. -/
theorem splitPollCanReportRolloverInReset : Obligations.SplitPollCanReportRolloverInReset := by
  unfold Obligations.SplitPollCanReportRolloverInReset
  refine ⟨fun s t hr ht => ?_, fun s bus rest hr hset hres hin => ?_⟩
  · obtain rfl := (exec_next_iff .poll s t).mp ht
    rw [afterEvent, pollPass_of_inReset hr]
    rfl
  · refine ⟨_, (run_core_succ (step_pollA_of_not_inReset hin hr) 2).trans
      ((run_core_succ (step_resetEdge_of_asserted (rest := .pollB :: rest) rfl ?_) 1).trans
        (run_core_succ (step_pollB_of_pending (rest := rest) rfl rfl ?_) 0)),
      (inReset_iff _).mpr rfl, rfl, rfl, rfl⟩
    · exact hres
    · exact hset

end Sys2Proof.Machine
end

/-! SUPPORT. Exception proofs (60_exceptions.md): a step is refused for a reserved word only (R96), what each
anomaly of R101 leaves behind, and in which order of a clock and a reset event the block differs (R103). -/

section
namespace Sys2Proof.Machine

/-! ### No condition is fatal -/

/-- Of everything a step can take, only a reserved word is refused (R56). -/
theorem exists_reserved_of_step_refused {s : State} {r : Refusal} (h : step s = .refused r) :
    ∃ w rest why, s.inputs = .word w :: rest ∧ decode w = .reserved why ∧ r = .reservedStimulus why w := by
  rcases hin : s.inputs with _ | ⟨e, rest⟩
  · simp [step, nextInput, hin] at h
  · cases e with
    | word w =>
      cases hd : decode w with
      | event i => rw [step_word hin hd, exec_eq_afterEvent] at h; cases h
      | reserved why =>
        rw [stepRefusesReservedWord s w rest why hin hd] at h
        cases h
        exact ⟨w, rest, why, rfl, hd, rfl⟩
    | clockEdge bus => rw [step_clockEdge hin, exec_eq_afterEvent] at h; cases h
    | resetEdge bus => rw [step_resetEdge hin, exec_eq_afterEvent] at h; cases h
    | pollA => rw [step_pollA hin] at h; cases h
    | pollB => rw [step_pollB hin] at h; cases h

/-- Settles O34: every event leads to `afterEvent`, there is no fault to raise, and
`exists_reserved_of_step_refused`. -/
theorem noConditionIsFatal : Obligations.NoConditionIsFatal := by
  unfold Obligations.NoConditionIsFatal
  refine ⟨fun i s => ⟨_, exec_eq_afterEvent i s⟩, fun s r => ?_, fun s r => exists_reserved_of_step_refused⟩
  cases r

/-! ### The anomalies -/

theorem exists_clkFall_of_clockLevelRead {i : Instr} (h : clockLevelRead i = some 0#1) :
    ∃ a rw, i = .clkFall a rw := by
  cases i with
  | clkFall a rw => exact ⟨a, rw, rfl⟩
  | clkRise d => simp [clockLevelRead] at h
  | resLow => cases h
  | resHigh => cases h
  | poll => cases h

theorem exists_clkRise_of_clockLevelRead {i : Instr} (h : clockLevelRead i = some 1#1) :
    ∃ d, i = .clkRise d := by
  cases i with
  | clkFall a rw => simp [clockLevelRead] at h
  | clkRise d => exact ⟨d, rfl⟩
  | resLow => cases h
  | resHigh => cases h
  | poll => cases h

theorem anomalyOf_eq_resetMidCycle_iff (i : Instr) (s : State) :
    anomalyOf i s = some .resetMidCycle ↔
      clockLevelRead i = some 1#1 ∧ s.block.pending = true ∧ inReset s = true := by
  cases i with
  | clkFall a rw => simp [anomalyOf, clockLevelRead]
  | clkRise d => simp only [anomalyOf, clockLevelRead]; split_ifs <;> simp_all
  | resLow => simp [anomalyOf, clockLevelRead]
  | resHigh => simp [anomalyOf, clockLevelRead]
  | poll => simp [anomalyOf, clockLevelRead]

/-- The wrapping `advance()` is that of an emission, which only a rise makes (R75, R100). -/
theorem anomalyOf_eq_rollover_iff (i : Instr) (s : State) :
    anomalyOf i s = some .rollover ↔ emits i s = true ∧ s.block.cycleCount = Config.cmax := by
  cases i with
  | clkFall a rw => simp [anomalyOf, emits, isRise]
  | clkRise d => simp only [anomalyOf, emits, isRise, emitting]; split_ifs <;> simp_all
  | resLow => simp [anomalyOf, emits, isRise]
  | resHigh => simp [anomalyOf, emits, isRise]
  | poll => simp [anomalyOf, emits, isRise]

/-- `Rollover` is the one anomaly, and the one event, that sets the rollover bit (R22, R100). -/
theorem rolloverPending_afterEvent_eq_true_iff (i : Instr) (s : State) :
    (afterEvent i s).block.rolloverPending = true ↔
      anomalyOf i s = some .rollover ∨ (s.block.rolloverPending = true ∧ (i = .poll → inReset s = true)) := by
  rw [afterEvent_rolloverPending, anomalyOf_eq_rollover_iff]
  by_cases hpoll : i = .poll
  · subst hpoll
    simp [emits, isRise, and_comm]
  · simp [hpoll, or_comm]

/-- A wrapping emission leaves the counter at 0 (R83). -/
theorem cycleCount_afterEvent_of_rollover {i : Instr} {s : State} (h : anomalyOf i s = some .rollover) :
    (afterEvent i s).block.cycleCount = 0#16 := by
  obtain ⟨he, hmax⟩ := (anomalyOf_eq_rollover_iff i s).mp h
  rw [afterEvent_cycleCount, assertsReset_eq_false_of_emits he, if_neg (by decide), if_pos he, hmax]
  rfl

/-- Settles O35: each anomaly names its event and what it finds, and the event's own lemma says what is left;
the rollover bit is `rolloverPending_afterEvent_eq_true_iff`. -/
theorem onlyRolloverLeavesAMark : Obligations.OnlyRolloverLeavesAMark := by
  unfold Obligations.OnlyRolloverLeavesAMark
  intro i s t ht
  obtain rfl := (exec_next_iff i s t).mp ht
  have hbit := rolloverPending_afterEvent_eq_true_iff i s
  cases ha : anomalyOf i s with
  | none =>
    intro hset
    rcases hbit.mp hset with hroll | ⟨hs, _⟩
    · rw [ha] at hroll; cases hroll
    · exact hs
  | some anomaly =>
    cases anomaly with
    | spuriousRise =>
      obtain ⟨hrise, hp⟩ := (anomalyOf_eq_spuriousRise_iff i s).mp ha
      obtain ⟨d, rfl⟩ := exists_clkRise_of_clockLevelRead hrise
      rw [afterEvent_clkRise_of_armed hp]
      rfl
    | resetMidCycle =>
      obtain ⟨hrise, hp, hr⟩ := (anomalyOf_eq_resetMidCycle_iff i s).mp ha
      obtain ⟨d, rfl⟩ := exists_clkRise_of_clockLevelRead hrise
      rw [afterEvent_clkRise_of_inReset hp hr]
      rfl
    | doubleFall =>
      obtain ⟨hfall, hp⟩ := (anomalyOf_eq_doubleFall_iff i s).mp ha
      obtain ⟨a, rw, rfl⟩ := exists_clkFall_of_clockLevelRead hfall
      rw [afterEvent_clkFall]
      exact ⟨hp, rfl, rfl, rfl, rfl⟩
    | rollover =>
      obtain ⟨he, _⟩ := (anomalyOf_eq_rollover_iff i s).mp ha
      refine ⟨cycleCount_afterEvent_of_rollover ha, hbit.mpr (.inl ha), ?_⟩
      rw [afterEvent_trace, samplesOf_append, List.length_append, length_samplesOf_recordsOf, if_pos he]

/-! ### The order of a clock event and a reset event -/

theorem inReset_resEdge (l : Level) (s : State) : inReset (resEdge l s) = (l == s.params.resetAssertLevel) := by
  rw [resEdge_eq]
  rfl

/-- A report of the level already latched leaves `in_reset` as it was. -/
theorem inReset_resEdge_of_latched {l : Level} {s : State} (h : l = s.block.resetLevel) :
    inReset (resEdge l s) = inReset s := by
  rw [inReset_resEdge, h, inReset]

/-- A report of the other level turns `in_reset` over: a line has two levels. -/
theorem inReset_resEdge_of_changed {l : Level} {s : State} (h : l ≠ s.block.resetLevel) :
    inReset (resEdge l s) = !inReset s := by
  have hflip : ∀ a b c : Level, a ≠ b → (a == c) = !(b == c) := by decide
  rw [inReset_resEdge, inReset]
  exact hflip _ _ _ h

/-- Out of reset, a report of the level already latched does nothing. -/
theorem resEdge_of_latched_of_not_inReset {l : Level} {s : State} (h : l = s.block.resetLevel)
    (hr : inReset s = false) : resEdge l s = s := by
  have hne : s.block.resetLevel ≠ s.params.resetAssertLevel := fun heq =>
    Bool.eq_false_iff.mp hr ((inReset_iff s).mpr heq)
  subst h
  rw [resEdge, if_neg hne]
  rfl

/-- `RES_EDGE` leaves `pending` alone, so it changes whether a rise emits through `in_reset` only. -/
theorem emitting_resEdge (l : Level) (s : State) :
    emitting (resEdge l s) = (s.block.pending && !inReset (resEdge l s)) := by
  have hp : (resEdge l s).block.pending = s.block.pending := by rw [resEdge_eq]
  rw [emitting, hp]

/-- A rise that emits nothing leaves no cycle pending, whether there was one (R74) or not (R76). -/
theorem afterEvent_clkRise_of_not_emitting {s : State} (h : emitting s = false) (d : Byte) :
    afterEvent (.clkRise d) s = (s.setClockLevel 1#1).setPending false := by
  cases hp : s.block.pending with
  | false =>
    rw [afterEvent_clkRise_of_armed hp]
    exact (State.setPending_eq_self (s := s.setClockLevel 1#1) hp).symm
  | true => exact afterEvent_clkRise_of_inReset hp (by simpa [emitting, hp] using h) d

/-- A rise beside a reset event that cannot change whether it emits: the level is the one latched, or
nothing is pending (R103). -/
theorem afterEvent_clkRise_resEdge_comm {l : Level} {s : State}
    (h : l = s.block.resetLevel ∨ s.block.pending = false) (d : Byte) :
    afterEvent (.clkRise d) (resEdge l s) = resEdge l (afterEvent (.clkRise d) s) := by
  have hsame : emitting (resEdge l s) = emitting s := by
    rw [emitting_resEdge, emitting]
    rcases h with hl | hp
    · rw [inReset_resEdge_of_latched hl]
    · simp [hp]
  cases he : emitting s with
  | false =>
    rw [afterEvent_clkRise_of_not_emitting he, afterEvent_clkRise_of_not_emitting (hsame.trans he),
      resEdge_eq, resEdge_eq]
    rfl
  | true =>
    obtain ⟨hp, hr⟩ : s.block.pending = true ∧ inReset s = false := by simpa [emitting] using he
    have hl : l = s.block.resetLevel := h.resolve_right (by simp [hp])
    rw [resEdge_of_latched_of_not_inReset hl hr, resEdge_of_latched_of_not_inReset]
    · exact hl.trans (afterEvent_resetLevel (.clkRise d) s).symm
    · exact (inReset_afterEvent (.clkRise d) s).trans hr

/-- Taken after the report of another level, a rise with a cycle pending emits exactly when it would not
have emitted before it. -/
theorem emitting_resEdge_of_changed {l : Level} {s : State} (h : l ≠ s.block.resetLevel)
    (hp : s.block.pending = true) : emitting (resEdge l s) = !emitting s := by
  rw [emitting_resEdge, inReset_resEdge_of_changed h, emitting, hp, Bool.true_and, Bool.true_and]

/-- One order emits a sample and the other does not (R103). -/
theorem trace_clkRise_resEdge_ne {l : Level} {s : State} (h : l ≠ s.block.resetLevel)
    (hp : s.block.pending = true) (d : Byte) :
    (resEdge l (afterEvent (.clkRise d) s)).trace ≠ (afterEvent (.clkRise d) (resEdge l s)).trace := by
  have htrace (u : State) : (resEdge l u).trace = u.trace := by rw [resEdge_eq]
  rw [htrace, afterEvent_trace, afterEvent_trace, htrace, ne_eq, List.append_cancel_left_eq, recordsOf,
    recordsOf, emitting_resEdge_of_changed h hp]
  cases emitting s <;> simp

/-- Beside a fall the two orders agree but for `direction`, which is derived or kept by what `in_reset` is
when the fall is taken (R72). -/
theorem afterEvent_clkFall_resEdge (l : Level) (a : Addr) (rw : Level) (s : State) :
    afterEvent (.clkFall a rw) (resEdge l s) =
      (resEdge l (afterEvent (.clkFall a rw) s)).setDirection
        (if l = s.params.resetAssertLevel then s.block.direction else directionOf s.params rw) := by
  simp only [afterEvent_clkFall, inReset_resEdge, beq_iff_eq]
  simp only [resEdge_eq, State.setDirection]

theorem direction_resEdge_clkFall (l : Level) (a : Addr) (rw : Level) (s : State) :
    (resEdge l (afterEvent (.clkFall a rw) s)).block.direction =
      if inReset s then s.block.direction else directionOf s.params rw := by
  rw [resEdge_eq, afterEvent_clkFall]

theorem State.setDirection_eq_self {s : State} {v : Direction} (h : s.block.direction = v) :
    s.setDirection v = s := by
  subst h; rfl

/-- Beside a report of the level already latched both orders find the same reset (R103). -/
theorem afterEvent_clkFall_resEdge_comm {l : Level} {s : State} (h : l = s.block.resetLevel) (a : Addr)
    (rw : Level) :
    afterEvent (.clkFall a rw) (resEdge l s) = resEdge l (afterEvent (.clkFall a rw) s) := by
  rw [afterEvent_clkFall_resEdge, State.setDirection_eq_self]
  simp only [direction_resEdge_clkFall, inReset_iff, h]

/-- Settles O56: a rise commutes unless the report changes whether it emits, and then just one order emits; a
fall commutes but for `direction`. -/
theorem raceOrderMattersOnlyWhereListed : Obligations.RaceOrderMattersOnlyWhereListed := by
  unfold Obligations.RaceOrderMattersOnlyWhereListed
  intro r l s hread
  have hreset := afterEvent_of_resetLevelRead hread
  simp only [runEvents_next_iff, afterEvents, hreset]
  refine ⟨?_, ?_, ?_⟩
  · rintro c _ _ hclock h rfl rfl
    refine congrArg observable (Eq.symm ?_)
    cases c with
    | clkFall a rw =>
      have hl : l = s.block.resetLevel := h.resolve_right fun ⟨hrise, _⟩ => by cases hrise
      exact afterEvent_clkFall_resEdge_comm hl a rw
    | clkRise d => exact afterEvent_clkRise_resEdge_comm (h.imp_right And.right) d
    | resLow => cases hclock
    | resHigh => cases hclock
    | poll => cases hclock
  · rintro d _ _ hl hp rfl rfl
    exact trace_clkRise_resEdge_ne hl hp d
  · rintro a rw _ _ rfl rfl
    rw [afterEvent_clkFall_resEdge]
    exact ⟨rfl, direction_resEdge_clkFall l a rw s, rfl⟩

end Sys2Proof.Machine
end

/-! SUPPORT. Idle proof (70_reset_and_hazards.md R113): with an empty queue there is no input to take, and the
step leaves the state as it is. -/

section
namespace Sys2Proof.Machine

/-- An empty queue yields no input (log 6). -/
theorem nextInput_eq_none {s : State} (hin : s.inputs = []) : nextInput s = none := by
  simp only [nextInput, hin]

/-- Settles O3: there is no input to take (`nextInput_eq_none`), and then the step answers the same state. -/
theorem stepWithoutInputChangesNothing : Obligations.StepWithoutInputChangesNothing := by
  unfold Obligations.StepWithoutInputChangesNothing
  intro s hin
  have hnone : nextInput s = none := nextInput_eq_none hin
  simp only [step, hnone]

end Sys2Proof.Machine
end
